-- ==== Sys2Proof/Word.lean ====
section
/-! DEFINITION. The word types of the unit (00_scope.md R5, R9): everything it moves is a byte; its two enumerated
registers have 3-bit and 2-bit codes. -/

namespace Sys2Proof

/-- `BYTE_BITS` = 8: the width of every data item the unit moves (R5). -/
abbrev Byte := BitVec 8

/-- `STATE_BITS` = 3: the width of the `state` register (R5, R92). -/
abbrev StateCode := BitVec 3

/-- `CAUSE_BITS` = 2: the width of the `done_cause` register (R5, R93). -/
abbrev CauseCode := BitVec 2

end Sys2Proof
end

