-- ==== Sys2Proof/Config.lean ====
section
/-! DEFINITION. The constants of 00_scope.md R5 and 30_encoding.md R98, the end-of-file policy of
93_implementation_defined.md U1, and the one free value of the model (U9). -/

namespace Sys2Proof.Config

/-- `PAYLOAD_LEN`: bytes of payload per block, always (R5). -/
@[simp] abbrev payloadLen : Nat := 128

/-- `FRAME_LEN`: bytes of a frame on the wire (R5). -/
@[simp] abbrev frameLen : Nat := 132

/-- `HEADER_LEN`: start marker, sequence, complement (R5); the payload's first offset (R51). -/
@[simp] abbrev headerLen : Nat := 3

/-- Offset of the checksum byte (R51). -/
@[simp] abbrev checksumOffset : Nat := 131

/-- Start marker of a frame (R5, R82, R98). -/
@[simp] abbrev SOH : Byte := 0x01#8

/-- End marker sent outbound (R5, R88, R98). -/
@[simp] abbrev EOT : Byte := 0x04#8

/-- Inbound: block accepted (R5, R89, R98). -/
@[simp] abbrev ACK : Byte := 0x06#8

/-- Inbound: block rejected, or start request (R5, R89, R98). -/
@[simp] abbrev NAK : Byte := 0x15#8

/-- Inbound: cancel (R5, R89, R98). -/
@[simp] abbrev CAN : Byte := 0x18#8

/-- Value of every pad byte (R5, R85). -/
@[simp] abbrev PAD : Byte := 0x00#8

/-- `EOF_POLICY` of U1 and D3: when the end-of-file flag is set. -/
inductive EofPolicy where
  | shortRead  -- set exactly when a read answered fewer than 128 bytes
  | emptied    -- the reading the spec does not take: set also by a full read that empties the source
deriving DecidableEq, Repr

/-- The policy this hardware has: `SHORT_READ`, fixed by decision D3 (R123).
DESIGN CHOICE of the spec, conflict C7; log entry 10. -/
@[simp] abbrev eofPolicy : EofPolicy := .shortRead

/-- FREE VALUE (U9, D6; log entry 14): the unread bytes that survive when a byte reaches a channel of finite
`RX_DEPTH` that is full. The channel's choice, outside the unit; nothing constrains it. -/
opaque rxOverflow : List Byte → Byte → List Byte

end Sys2Proof.Config
end

