-- ==== Sys2Proof/Machine/Operands.lean ====
section
/-! DEFINITION. How the operands of a frame are put together (30_encoding.md R95): sequence, complement, padding,
checksum, assembly. Pure functions of bytes. -/

namespace Sys2Proof.Machine

/-- The widened sum of R110, before reduction: at most 128 * 255 for 128 bytes. -/
def byteSum : List Byte → Nat
  | [] => 0
  | b :: bs => b.toNat + byteSum bs

/-- `CHECKSUM8` (R110), first pseudocode: the widened sum, reduced once modulo 256. -/
def checksumOf (p : List Byte) : Byte := BitVec.ofNat 8 (byteSum p)

/-- `CHECKSUM8` (R110), second pseudocode: an 8-bit accumulator, the carry out of bit 7 dropped at every add. -/
def checksumAcc (p : List Byte) : Byte := p.foldl (fun acc b => acc + b) 0x00#8

/-- The `sequence` byte (R83, R124): the block number plus one, modulo 256. -/
def sequenceByte (blockNumber : Byte) : Byte := blockNumber + 1#8

/-- The `sequence_complement` byte (R84, R125): 0xFF minus the sequence. -/
def complementByte (sequence : Byte) : Byte := 0xFF#8 - sequence

/-- The padded payload (R85, R95): the data, then pad bytes to 128. -/
def padded (d : List Byte) : List Byte := d ++ List.replicate (Config.payloadLen - d.length) Config.PAD

/-- The byte layout of a frame (R51, R81). -/
def frameBytes (sequence complement : Byte) (payload : List Byte) (checksum : Byte) : List Byte :=
  Config.SOH :: sequence :: complement :: (payload ++ [checksum])

end Sys2Proof.Machine
end

