-- ==== Sys2Proof/Syntax.lean ====
section
/-! DEFINITION. The operations of the unit, one constructor per row of spec/opcode_table.json (30_encoding.md R96).
The unit fetches no program; an operation is selected by the inbound byte, by the `state` register or by the
operation that invokes it. -/

namespace Sys2Proof

/-- The 18 rows of the operation table. -/
inductive Instr where
  /-- Row `ACK` (R89, R152): inbound byte 0x06 read in `AWAIT_ACK`. -/
  | ack
  /-- Row `NAK` (R89, R152): inbound byte 0x15 read in `AWAIT_ACK`. -/
  | nak
  /-- Row `CAN` (R89, R152): inbound byte 0x18 read in `AWAIT_ACK`. -/
  | can
  /-- Row `IGNORED` (R90): any other inbound byte read in `AWAIT_ACK`. -/
  | ignored (byte : Byte)
  /-- Row `EOT_RESPONSE` (R91): the byte read in `SEND_EOT`, whatever it is. -/
  | eotResponse (byte : Byte)
  /-- Row `BLOCK` (R81): the outbound 132-byte frame. -/
  | block (sequence complement : Byte) (payload : List Byte) (checksum : Byte)
  /-- Row `EOT` (R88): the outbound end marker. -/
  | eot
  /-- Row `OP_INIT` (R151), state code 0. -/
  | opInit
  /-- Row `OP_AWAIT_ACK` (R152), state code 1. -/
  | opAwaitAck
  /-- Row `OP_ADVANCE` (R153), state code 2. -/
  | opAdvance
  /-- Row `OP_BUILD` (R154), state code 3. -/
  | opBuild
  /-- Row `OP_SEND` (R155), state code 4. -/
  | opSend
  /-- Row `OP_SEND_EOT` (R156), state code 5. -/
  | opSendEot
  /-- Row `OP_DONE` (R157), state code 6. -/
  | opDone
  /-- Row `CHECKSUM8` (R110): component function, operand a sequence of 128 bytes. -/
  | checksum8 (payload : List Byte)
  /-- Row `BUILD_BLOCK` (R128): component function. -/
  | buildBlock
  /-- Row `EMIT` (R140): component function, operand a byte sequence. -/
  | emit (bytes : List Byte)
  /-- Row `AWAIT_BYTE` (R142): component function. -/
  | awaitByte
deriving DecidableEq, Repr

end Sys2Proof
end

