-- ==== Sys2Proof/Decode.lean ====
section
/-! DEFINITION. The decoder and the encoder (30_encoding.md R80 to R96). The table's words live in four places, and
the same byte means different things in each: which place is read is part of the decoder's input. -/

namespace Sys2Proof

/-- Where a word of the operation table is read (R80, R92, R96). -/
inductive Space where
  | awaitAck   -- `CTRL_IN`, the inbound byte read in `AWAIT_ACK` (R89)
  | sendEot    -- `CTRL_IN`, the inbound byte read in `SEND_EOT` (R91)
  | outbound   -- `FRAME` and `CTRL_OUT`, the outbound stream at an item boundary (R94)
  | stateReg   -- `STATE`, the code in the `state` register (R92)
deriving DecidableEq, Repr

/-- Why bytes are no word of their space. -/
inductive DecodeError where
  | noBytes            -- nothing to read
  | shortFrame         -- a frame starts and fewer than 132 bytes are there (R81)
  | noItemStartsSo     -- an outbound first byte other than 0x01 and 0x04 (R94)
  | stateCodeSeven     -- the eighth state code, which names no state (R92, U6)
  | notThreeBits       -- a byte above 7 is no 3-bit state code (R92)
deriving DecidableEq, Repr

/-- What the decoder answers: an instruction and the bytes after it, or a rejection by name. -/
inductive Decoded where
  | instr (i : Instr) (rest : List Byte)
  | rejected (e : DecodeError)
deriving DecidableEq, Repr

/-- The inbound byte in `AWAIT_ACK`: total over all 256 values, compared in the order of R152 (R89, R90). -/
def decodeCtrlIn (c : Byte) : Instr :=
  if c = Config.CAN then .can
  else if c = Config.ACK then .ack
  else if c = Config.NAK then .nak
  else .ignored c

/-- The operation a `state` code selects; code 7 selects none (R92). -/
def decodeStateCode (c : StateCode) : Option Instr :=
  match c.toNat with
  | 0 => some .opInit
  | 1 => some .opAwaitAck
  | 2 => some .opAdvance
  | 3 => some .opBuild
  | 4 => some .opSend
  | 5 => some .opSendEot
  | 6 => some .opDone
  | _ => none

/-- An outbound item, told by its first byte (R94): 0x01 starts a 132-byte frame and the next 131 bytes belong to it
whatever their values; 0x04 is the one-byte ending. -/
def decodeOutbound : List Byte → Decoded
  | [] => .rejected .noBytes
  | b :: bs =>
    if b = Config.EOT then .instr .eot bs
    else if b = Config.SOH then
      match bs with
      | q :: c :: tail =>
        match tail.drop Config.payloadLen with
        | k :: rest => .instr (.block q c (tail.take Config.payloadLen) k) rest
        | [] => .rejected .shortFrame
      | _ => .rejected .shortFrame
    else .rejected .noItemStartsSo

/-- The `state` register's code, read as a byte. -/
def decodeStateByte (b : Byte) (rest : List Byte) : Decoded :=
  if b.toNat < 8 then
    match decodeStateCode (BitVec.ofNat 3 b.toNat) with
    | some i => .instr i rest
    | none => .rejected .stateCodeSeven
  else .rejected .notThreeBits

/-- The whole decoder: total on any bytes of any space, rejecting by name. -/
def decode : Space → List Byte → Decoded
  | .outbound, bs => decodeOutbound bs
  | .awaitAck, b :: rest => .instr (decodeCtrlIn b) rest
  | .sendEot, b :: rest => .instr (.eotResponse b) rest
  | .stateReg, b :: rest => decodeStateByte b rest
  | .awaitAck, [] => .rejected .noBytes
  | .sendEot, [] => .rejected .noBytes
  | .stateReg, [] => .rejected .noBytes

/-- The 3-bit code that selects a controller operation (R92). -/
def encodeStateCode : Instr → Option StateCode
  | .opInit => some 0
  | .opAwaitAck => some 1
  | .opAdvance => some 2
  | .opBuild => some 3
  | .opSend => some 4
  | .opSendEot => some 5
  | .opDone => some 6
  | _ => none

/-- The words of an instruction and the space they stand in, from the tables of R81, R88, R89, R91 and R92. The four
component functions have none: they "are invoked by the controller operations and not selected by any field" (R96). -/
def encode : Instr → Option (Space × List Byte)
  | .ack => some (.awaitAck, [0x06#8])
  | .nak => some (.awaitAck, [0x15#8])
  | .can => some (.awaitAck, [0x18#8])
  | .ignored b => some (.awaitAck, [b])
  | .eotResponse b => some (.sendEot, [b])
  | .block q c p k => some (.outbound, [0x01#8, q, c] ++ p ++ [k])
  | .eot => some (.outbound, [0x04#8])
  | .opInit => some (.stateReg, [0#8])
  | .opAwaitAck => some (.stateReg, [1#8])
  | .opAdvance => some (.stateReg, [2#8])
  | .opBuild => some (.stateReg, [3#8])
  | .opSend => some (.stateReg, [4#8])
  | .opSendEot => some (.stateReg, [5#8])
  | .opDone => some (.stateReg, [6#8])
  | .checksum8 _ => none
  | .buildBlock => none
  | .emit _ => none
  | .awaitByte => none

/-- The width in bits the table gives an instruction's row; 0 for the four rows with an empty encoding (R96). -/
def tableBits : Instr → Nat
  | .ack => 8
  | .nak => 8
  | .can => 8
  | .ignored _ => 8
  | .eotResponse _ => 8
  | .block _ _ _ _ => 1056
  | .eot => 8
  | .opInit => 3
  | .opAwaitAck => 3
  | .opAdvance => 3
  | .opBuild => 3
  | .opSend => 3
  | .opSendEot => 3
  | .opDone => 3
  | .checksum8 _ => 0
  | .buildBlock => 0
  | .emit _ => 0
  | .awaitByte => 0

/-- The outbound stream cut into its items: frames and end markers, from an item boundary (R94). `fuel` bounds the
number of items; bytes that start no item end the cut. -/
def decodeStream : Nat → List Byte → List Instr × List Byte
  | 0, bs => ([], bs)
  | fuel + 1, bs =>
    match decodeOutbound bs with
    | .instr i rest => let (is, left) := decodeStream fuel rest; (i :: is, left)
    | .rejected _ => ([], bs)

/-- The instruction a decoder answer holds. -/
def Decoded.instr? : Decoded → Option Instr
  | .instr i _ => some i
  | .rejected _ => none

/-- Byte `i` of a table word: bits `8 i + 7` to `8 i`, so that the first byte is in bits 7 to 0. DESIGN CHOICE, log entry
7: which end of a 1056-bit word holds byte 0 is open. R81 names byte 0 by bits 1055:1048 ("only as a way to name every
bit"), while the `fixed` field of the table's row `BLOCK` puts byte 0's value in bits 7:0, the end taken here. -/
def tableByte (w i : Nat) : Byte := BitVec.ofNat 8 (w >>> (8 * i))

/-- The first `n` bytes of such a word. -/
def tableBytes (w : Nat) : Nat → List Byte
  | 0 => []
  | n + 1 => tableBytes w n ++ [tableByte w n]

/-- One table byte with no word on where it is read. DESIGN CHOICE, log entry 7: the narrower match first. A row that
fixes all 8 bits (`EOT`, `ACK`, `NAK`, `CAN`) is taken before a row that fixes 3 (the state codes), and that before
the rows that fix none (`IGNORED`, the default row; `EOT_RESPONSE` is never answered here). -/
def decodeTableByte (b : Byte) : Option Instr :=
  if b = Config.EOT then some .eot
  else if b = Config.ACK ∨ b = Config.NAK ∨ b = Config.CAN then some (decodeCtrlIn b)
  else
    match (decode .stateReg [b]).instr? with
    | some i => some i
    | none => some (decodeCtrlIn b)

/-- The host's question: the instruction read from a word of spec/opcode_table.json. No bits select none (R96); up to 3
they are a `state` code, up to 8 one byte, and above that an outbound item of 132 bytes (every bit above `nbits` is 0).
Log entry 7. -/
def decodeTableWord (nbits w : Nat) : Option Instr :=
  if nbits = 0 then none
  else if nbits ≤ 3 then (decode .stateReg [BitVec.ofNat 8 (w % 8)]).instr?
  else if nbits ≤ 8 then decodeTableByte (BitVec.ofNat 8 w)
  else (decode .outbound (tableBytes (w % 2 ^ nbits) Config.frameLen)).instr?

end Sys2Proof
end

