-- ==== Sys2Proof/Machine/Codes.lean ====
section
/-! DEFINITION. The two enumerated registers of the unit and their codes (30_encoding.md R92, R93). -/

namespace Sys2Proof.Machine

/-- The seven values of the `state` register (10_state.md R21, 43_controller.md R150). A seven-valued type, so that
the eighth code cannot be written down (R92). -/
inductive CtrlState where
  | init
  | awaitAck
  | advance
  | build
  | send
  | sendEot
  | done
deriving DecidableEq, Repr

/-- The four values of the `done_cause` register (R27): how `DONE` was reached. -/
inductive DoneCause where
  | none
  | complete
  | peerCancelled
  | sourceUnavailable
deriving DecidableEq, Repr

/-- The 3-bit code of a state (R92). -/
def CtrlState.code : CtrlState → StateCode
  | .init => 0
  | .awaitAck => 1
  | .advance => 2
  | .build => 3
  | .send => 4
  | .sendEot => 5
  | .done => 6

/-- The state a code names; code 7 names none (R92). -/
def CtrlState.ofCode (c : StateCode) : Option CtrlState :=
  match c.toNat with
  | 0 => some .init
  | 1 => some .awaitAck
  | 2 => some .advance
  | 3 => some .build
  | 4 => some .send
  | 5 => some .sendEot
  | 6 => some .done
  | _ => Option.none

/-- The 2-bit code of a cause (R93). -/
def DoneCause.code : DoneCause → CauseCode
  | .none => 0
  | .complete => 1
  | .peerCancelled => 2
  | .sourceUnavailable => 3

/-- The cause a code names; all four codes are used (R93). -/
def DoneCause.ofCode (c : CauseCode) : DoneCause :=
  match c.toNat with
  | 0 => .none
  | 1 => .complete
  | 2 => .peerCancelled
  | _ => .sourceUnavailable

end Sys2Proof.Machine
end

