-- ==== Sys2Proof/Machine/State.lean ====
section
/-! DEFINITION. Everything the spec gives the machine, as plain data: the seven registers of 10_state.md R20, the
session's inputs (R36), the trace (00_scope.md R12), and two fields of the model's own. -/

namespace Sys2Proof.Machine

/-- The frame buffer `current_block` (20_memory.md R50 (a), R51): bytes at offsets 0 to 131, as a list of
(offset, byte) pairs in one canonical form (`Memory.wf` in Machine/Ops.lean). -/
abbrev Memory := List Host.Cell

/-- What an offset that nothing has written reads as. The spec gives no reset contents (R24, D11): DESIGN CHOICE 0x00,
log entry 3. -/
@[simp] abbrev Memory.unwritten : Byte := 0x00#8

/-- One event on a port (00_scope.md R11, R12). -/
inductive Event where
  | srcOpenOk
  | srcOpenFail
  | srcRead (data : List Byte)  -- `SrcRead(n; d)`, `n` being the length of `d`
  | srcClose
  | tx (b : Byte)
  | rx (b : Byte)
deriving DecidableEq, Repr

/-- The model's mark of an operation that waits half way (D1; 42_link.md R143; log entry 2). -/
inductive Progress where
  | idle                 -- at a step boundary of the spec: no operation is half done
  | opened               -- `OP_INIT`: the source was opened, its first read is not answered yet
  | sending (sent : Nat) -- `EMIT`: so many bytes are handed over, the channel has not taken the next
  | eotSent              -- `OP_SEND_EOT`: the EOT is handed over, the answer byte has not come
deriving DecidableEq, Repr

/-- Why the machine stops with a fault. -/
inductive Fault where
  /-- Raised by `OP_BUILD` and `BUILD_BLOCK` when `file_open` = 0: outside the precondition of R120, and `SrcRead128()`
  is issued only while the source is open (R52). Safe; unreachable from reset. -/
  | sourceNotOpen
deriving DecidableEq, Repr

/-- Why the machine gives no meaning. -/
inductive Refusal where
  /-- Raised by no arm of exec: every row of the table has its meaning. Safe. -/
  | notModelled (mnemonic : String)
  /-- Raised by `CHECKSUM8` on a sequence that is not 128 bytes (R111) and by `BLOCK` with a payload that is not 128
  bytes (R81, R85): operands the unit never has. Safe. -/
  | operandLength
  /-- Raised by `hostReset` on a session that has begun and is not final (R213, D26, U7). Safe. -/
  | resetMidSession
deriving DecidableEq, Repr

/-- The state of the unit, of its ports' other sides, and of the model. -/
structure State where
  /-- `state` (R21). -/
  state : CtrlState
  /-- `block_number` (R22). -/
  blockNumber : Byte
  /-- `eof_flag` (R23). -/
  eofFlag : Bool
  /-- `current_block` (R24). -/
  currentBlock : Memory
  /-- `file_open` (R25). -/
  fileOpen : Bool
  /-- `raw_mode` (R26). -/
  rawMode : Bool
  /-- `done_cause` (R27). -/
  doneCause : DoneCause
  /-- The model's own: the mark of an operation half done (log entry 2). -/
  progress : Progress
  /-- The model's own: the byte a component function's row hands back (log entry 5). -/
  returned : Byte
  /-- The source's content `F` (R52). -/
  srcContent : List Byte
  /-- The source's read position `p` (R52). -/
  srcPos : Nat
  /-- Whether the source answers `ok` to `SrcOpen()` (R52). -/
  srcOpens : Bool
  /-- How many bytes at most the coming read answers hold, one number an answer; empty for a source that keeps its
  contract (R226, U8; log entry 13). -/
  srcShort : List Nat
  /-- How many more requests the source answers before it keeps the unit waiting; none for a source that answers every
  request at once (R52, R143). -/
  srcReady : Option Nat
  /-- The unread inbound bytes, oldest first (R54). -/
  rx : List Byte
  /-- `RX_DEPTH` (R5, R54): none is unbounded. -/
  rxDepth : Option Nat
  /-- How many more bytes the channel takes before it keeps the unit waiting; none for a channel that takes every byte
  at once (R53, R143). -/
  txReady : Option Nat
  /-- The trace of port events since reset, oldest first (R12). -/
  trace : List Event
deriving DecidableEq, Repr

/-- The machine right after reset (R34, R210). The seven registers have the values of R34; `current_block`, which R34
leaves unspecified, lists nothing (log entry 3). The session's inputs are those of log entry 4, the model's own fields
those of entries 2 and 5. No port event has happened. -/
def State.reset : State where
  state := .init
  blockNumber := 0
  eofFlag := false
  currentBlock := []
  fileOpen := false
  rawMode := false
  doneCause := .none
  progress := .idle
  returned := 0
  srcContent := []
  srcPos := 0
  srcOpens := true
  srcShort := []
  srcReady := none
  rx := []
  rxDepth := none
  txReady := none
  trace := []

end Sys2Proof.Machine
end

