-- ==== Sys2Proof/Machine/Ops.lean ====
section
/-! DEFINITION. The named operations over the frame buffer, the registers and the ports, and the shared operations that
end an operation: the transfer of control, the entry to `DONE`, and the release. -/

namespace Sys2Proof.Machine

/-- What a meaning answers. -/
abbrev Result := Host.Outcome State Fault Refusal

/-! ## The frame buffer (20_memory.md R51, R57 to R59) -/

/-- One byte of the buffer. Reading has no side effect (R59). -/
def Memory.read : Memory → Nat → Byte
  | [], _ => Memory.unwritten
  | (k, b) :: rest, a => if k = a then b else Memory.read rest a

/-- The buffer with no entry for an offset. -/
def Memory.erase : Memory → Nat → Memory
  | [], _ => []
  | (k, b) :: rest, a => if k = a then Memory.erase rest a else (k, b) :: Memory.erase rest a

/-- An entry put before the first higher offset. -/
def Memory.insert : Memory → Nat → Byte → Memory
  | [], a, v => [(a, v)]
  | (k, b) :: rest, a, v => if a < k then (a, v) :: (k, b) :: rest else (k, b) :: Memory.insert rest a v

/-- One byte written. Writing what an unlisted offset reads as removes the entry, so that equal buffers are equal
lists. -/
def Memory.write (m : Memory) (a : Nat) (v : Byte) : Memory :=
  if v = Memory.unwritten then Memory.erase m a else Memory.insert (Memory.erase m a) a v

/-- `MemRead(addr, n)` of R10: the bytes at `addr` to `addr + n - 1`. -/
def Memory.readRange (m : Memory) : Nat → Nat → List Byte
  | _, 0 => []
  | a, n + 1 => Memory.read m a :: Memory.readRange m (a + 1) n

/-- `MemWrite(addr, n, v)` of R10: the bytes `v` at `addr` and up. -/
def Memory.writeRange : Memory → Nat → List Byte → Memory
  | m, _, [] => m
  | m, a, b :: bs => Memory.writeRange (Memory.write m a b) (a + 1) bs

/-- Offsets strictly rising from `low`, all below 132 (R51: offsets 132 and above do not exist), and no entry equal to
what an unlisted offset reads as. -/
def Memory.wfFrom : Nat → Memory → Bool
  | _, [] => true
  | low, (k, b) :: rest =>
    decide (low ≤ k) && decide (k < Config.frameLen) && (b != Memory.unwritten) && Memory.wfFrom (k + 1) rest

/-- The canonical form of the frame buffer. -/
def Memory.wf (m : Memory) : Bool := Memory.wfFrom 0 m

/-! ## Register writes (10_state.md R20) -/

/-- Writes `blockNumber` and nothing else. -/
def State.setBlockNumber (v : Byte) (s : State) : State := { s with blockNumber := v }

/-- Writes `eofFlag` and nothing else. -/
def State.setEofFlag (v : Bool) (s : State) : State := { s with eofFlag := v }

/-- Writes `currentBlock` and nothing else. -/
def State.setCurrentBlock (v : Memory) (s : State) : State := { s with currentBlock := v }

/-- Writes `fileOpen` and nothing else. -/
def State.setFileOpen (v : Bool) (s : State) : State := { s with fileOpen := v }

/-- Writes `rawMode` and nothing else. -/
def State.setRawMode (v : Bool) (s : State) : State := { s with rawMode := v }

/-- Writes `doneCause` and nothing else. -/
def State.setDoneCause (v : DoneCause) (s : State) : State := { s with doneCause := v }

/-- Writes `progress` and nothing else. -/
def State.setProgress (v : Progress) (s : State) : State := { s with progress := v }

/-- Writes `returned` and nothing else. -/
def State.setReturned (v : Byte) (s : State) : State := { s with returned := v }

/-- Writes `srcPos` and nothing else. -/
def State.setSrcPos (v : Nat) (s : State) : State := { s with srcPos := v }

/-- Writes `srcShort` and nothing else. -/
def State.setSrcShort (v : List Nat) (s : State) : State := { s with srcShort := v }

/-- Writes `srcReady` and nothing else. -/
def State.setSrcReady (v : Option Nat) (s : State) : State := { s with srcReady := v }

/-- Writes `rx` and nothing else. -/
def State.setRx (v : List Byte) (s : State) : State := { s with rx := v }

/-- Writes `txReady` and nothing else. -/
def State.setTxReady (v : Option Nat) (s : State) : State := { s with txReady := v }

/-- Events put at the end of the trace (R12). -/
def State.log (es : List Event) (s : State) : State := { s with trace := s.trace ++ es }

/-- `state <- S`, the control transfer of this unit (R10) and the last action of every operation (R21). The operation is
then whole, so the model's mark of a half-done operation is cleared. -/
def State.goto (t : CtrlState) (s : State) : State := { s with state := t, progress := .idle }

/-! ## The ports (00_scope.md R11; 20_memory.md R52 to R54) -/

/-- One answer taken from a bounded readiness; none where the other side keeps the unit waiting (R143). -/
def spend : Option Nat → Option (Option Nat)
  | none => some none
  | some 0 => none
  | some (n + 1) => some (some n)

/-- `SrcOpen()` (R52): the source's answer and the state after it; none while the source has not answered. After `ok`
the read position is 0. -/
def srcOpen (s : State) : Option (Bool × State) :=
  match spend s.srcReady with
  | none => none
  | some r =>
    if s.srcOpens then some (true, ((s.setSrcReady r).setSrcPos 0).log [.srcOpenOk])
    else some (false, (s.setSrcReady r).log [.srcOpenFail])

/-- The bytes the source answers to the next read (R52): `n = min(128, L - p)` from position `p`, fewer where the
source breaks its contract (R226); never more than 128 (U8). -/
def srcAnswer (s : State) : List Byte :=
  (s.srcContent.drop s.srcPos).take (min Config.payloadLen (s.srcShort.headD Config.payloadLen))

/-- `SrcRead128()` (R52, R121): one answer taken as a whole (R60), the position advanced by its length; none while the
source has not answered. -/
def srcRead128 (s : State) : Option (List Byte × State) :=
  match spend s.srcReady with
  | none => none
  | some r =>
    some (srcAnswer s,
      (((s.setSrcReady r).setSrcPos (s.srcPos + (srcAnswer s).length)).setSrcShort s.srcShort.tail).log
        [.srcRead (srcAnswer s)])

/-- `SrcClose()` (R52): no answer, so no wait. -/
def srcClose (s : State) : State := s.log [.srcClose]

/-- How many of `n` bytes the channel takes before it keeps the unit waiting (R53). -/
def channelTakes (room : Option Nat) (n : Nat) : Nat :=
  match room with
  | none => n
  | some r => min r n

/-- `Tx` of each byte in order, the channel taking them all (R11, R53). -/
def State.handOver (bs : List Byte) (s : State) : State :=
  { s with trace := s.trace ++ bs.map Event.tx, txReady := s.txReady.map (· - bs.length) }

/-- How many bytes of an emission are handed over already. -/
def Progress.sentSoFar : Progress → Nat
  | .sending k => k
  | _ => 0

/-- `EMIT` (R140, R141): the bytes in index order, each once, unchanged, from where a waiting emission stopped. The
first component says whether the last byte has been handed over. -/
def emit (bs : List Byte) (s : State) : Bool × State :=
  let k := s.progress.sentSoFar
  let m := channelTakes s.txReady (bs.length - k)
  let s1 := s.handOver ((bs.drop k).take m)
  if bs.length ≤ k + m then (true, s1.setProgress .idle)
  else (false, if m = 0 then s1 else s1.setProgress (.sending (k + m)))

/-- `Rx()` (R54, R142): the oldest unread byte, consumed; none while there is none. -/
def rxByte (s : State) : Option (Byte × State) :=
  match s.rx with
  | [] => none
  | b :: rest => some (b, (s.setRx rest).log [.rx b])

/-! ## Conditions, entry to `DONE`, release (60_exceptions.md R180 to R190) -/

/-- The taxonomy of R180. -/
inductive Condition where
  | sourceUnavailable
  | peerCancelled
  | peerRejectedBlock
  | unrecognizedControlByte
deriving DecidableEq, Repr

/-- Entry to `DONE`, the unit's only "trap entry" (R189): `done_cause` and `state` are written, nothing else is saved or
changed. For the two terminating conditions this is `raise C` of R10. -/
def State.enterDone (c : DoneCause) (s : State) : State := (s.setDoneCause c).goto .done

/-- The effect of each condition (R180 to R184): two end the session, two do not. -/
def State.takeCondition : Condition → State → State
  | .sourceUnavailable, s => s.enterDone .sourceUnavailable
  | .peerCancelled, s => s.enterDone .peerCancelled
  | .peerRejectedBlock, s => s.goto .send
  | .unrecognizedControlByte, s => s.goto .awaitAck

/-- What stands in the place of a return (R190: there is none from `DONE`): the release of the source and of the channel
mode, close first, then mode (R157). -/
def State.release (s : State) : State :=
  (if s.fileOpen then (srcClose s).setFileOpen false else s).setRawMode false

end Sys2Proof.Machine
end

