-- ==== Sys2Proof/Machine/Checksum.lean ====
section
/-! DEFINITION. Family `CHECKSUM8` (40_checksum.md). -/

namespace Sys2Proof.Machine

/-- Row `CHECKSUM8` (R110, R113): the byte is handed back; no register is written, no port is touched. Defined for 128
bytes only (R111). -/
def execChecksum8 (p : List Byte) (s : State) : Result :=
  if p.length = Config.payloadLen then .next (s.setReturned (checksumOf p)) else .refused .operandLength

end Sys2Proof.Machine
end

