-- ==== Sys2Proof/Machine/Control.lean ====
section
/-! DEFINITION. Family `CTRL_IN` (30_encoding.md R89 to R91): what a byte read from the peer does, once the operation
that read it has consumed it. -/

namespace Sys2Proof.Machine

/-- Row `ACK` (R89): `state <- ADVANCE`. -/
def execAck (s : State) : Result := .next (s.goto .advance)

/-- Row `NAK` (R89, R183): `state <- SEND`, the frame sent again or for the first time. -/
def execNak (s : State) : Result := .next (s.takeCondition .peerRejectedBlock)

/-- Row `CAN` (R89, R182): `done_cause <- PEER_CANCELLED; state <- DONE`. -/
def execCan (s : State) : Result := .next (s.takeCondition .peerCancelled)

/-- Row `IGNORED` (R90, R184): `state <- AWAIT_ACK` and nothing else, whatever the byte. -/
def execIgnored (_byte : Byte) (s : State) : Result := .next (s.takeCondition .unrecognizedControlByte)

/-- Row `EOT_RESPONSE` (R91, R156): the byte is not decoded; `done_cause <- COMPLETE; state <- DONE`. -/
def execEotResponse (_byte : Byte) (s : State) : Result := .next (s.enterDone .complete)

end Sys2Proof.Machine
end

