-- ==== Sys2Proof/Machine/Flags.lean ====
section
/-! DEFINITION. The end-of-file flag's rule, and the conditions on a state the spec names: final, and able to act. -/

namespace Sys2Proof.Machine

/-- The flag's rule for a read that answered `n` bytes and left `left` in the source (41_framer.md R123; U1). -/
def eofSeen (policy : Config.EofPolicy) (n left : Nat) : Bool :=
  match policy with
  | .shortRead => decide (n < Config.payloadLen)
  | .emptied => decide (n < Config.payloadLen) || decide (left = 0)

/-- `eof_flag` after a build whose read answered `n` bytes: set, or left as it is (R123, R23: no operation clears it). -/
def State.eofAfter (n : Nat) (s : State) : Bool :=
  s.eofFlag || eofSeen Config.eofPolicy n (s.srcContent.length - s.srcPos)

/-- The session is final (43_controller.md R159). -/
def State.isFinal (s : State) : Bool :=
  decide (s.state = .done) && !s.fileOpen && !s.rawMode

/-- The source answers a request now (R143). -/
def State.srcAnswers (s : State) : Bool := decide (s.srcReady ≠ some 0)

/-- The channel takes a byte now (R143). -/
def State.txTakes (s : State) : Bool := decide (s.txReady ≠ some 0)

/-- A byte waits in the inbound channel (R143). -/
def State.rxWaiting (s : State) : Bool := !s.rx.isEmpty

/-- The unit can act: the event its operation waits for is there (42_link.md R143), and the session is not final
(R159). A state where this is false and `isFinal` is false is a hold. -/
def State.canAct (s : State) : Bool :=
  match s.state with
  | .init => s.srcAnswers
  | .awaitAck => s.rxWaiting
  | .advance => true
  | .build => s.srcAnswers
  | .send => s.txTakes
  | .sendEot => if s.progress = .eotSent then s.rxWaiting else s.txTakes
  | .done => !s.isFinal

end Sys2Proof.Machine
end

