-- ==== Sys2Proof/Machine/Framer.lean ====
section
/-! DEFINITION. Family `BUILD_BLOCK` (41_framer.md): the six parts of R121 to R127, put together as R128 does. -/

namespace Sys2Proof.Machine

/-- Part 2 (R122): the payload area is cleared to zero, then the data is copied in. -/
def fillPayload (d : List Byte) (m : Memory) : Memory :=
  (m.writeRange Config.headerLen (List.replicate Config.payloadLen Config.PAD)).writeRange Config.headerLen d

/-- Parts 4 to 6 and the assembly (R124 to R127): the header, and the checksum taken from the 128 payload bytes that
stand in the buffer (R112). -/
def assemble (blockNumber : Byte) (m : Memory) : Memory :=
  let seq := sequenceByte blockNumber
  let m1 := ((m.write 0 Config.SOH).write 1 seq).write 2 (complementByte seq)
  m1.write Config.checksumOffset (checksumOf (m1.readRange Config.headerLen Config.payloadLen))

/-- `BUILD_BLOCK` after the read's answer `d` (R122 to R128). -/
def buildFrom (d : List Byte) (s : State) : State :=
  (s.setCurrentBlock (assemble s.blockNumber (fillPayload d s.currentBlock))).setEofFlag (s.eofAfter d.length)

/-- `BUILD_BLOCK` (R128): exactly one `SrcRead128()`, then the frame; none while the source has not answered. -/
def buildBlock (s : State) : Option State :=
  match srcRead128 s with
  | none => none
  | some (d, s1) => some (buildFrom d s1)

/-- Row `BUILD_BLOCK` (R120, R128). Precondition `file_open` = 1. While the source does not answer the unit waits
(R143). -/
def execBuildBlock (s : State) : Result :=
  if s.fileOpen then
    match buildBlock s with
    | none => .next s
    | some s1 => .next s1
  else .fault .sourceNotOpen

end Sys2Proof.Machine
end

