-- ==== Sys2Proof/Machine/Link.lean ====
section
/-! DEFINITION. Family of the link driver (42_link.md): `EMIT`, `AWAIT_BYTE`, and the two outbound items `BLOCK` and
`EOT` that it sends. -/

namespace Sys2Proof.Machine

/-- A frame sent and `state <- AWAIT_ACK` after its last byte (R141, R155). While the channel does not take a byte the
unit waits, the bytes already handed over marked (R143). -/
def sendFrame (bytes : List Byte) (s : State) : State :=
  match emit bytes s with
  | (true, s1) => s1.goto .awaitAck
  | (false, s1) => s1

/-- The EOT byte sent, and the mark "EOT sent, answer awaited" that R156 asks for; none while the channel does not take
it. -/
def sendEotByte (s : State) : Option State :=
  if s.txTakes then some ((s.handOver [Config.EOT]).setProgress .eotSent) else none

/-- Row `EMIT` (R140): `Tx` of every byte in index order; no register is written. -/
def execEmit (bytes : List Byte) (s : State) : Result := .next (emit bytes s).2

/-- Row `AWAIT_BYTE` (R142): the oldest inbound byte is consumed and handed back; the unit waits while there is none. -/
def execAwaitByte (s : State) : Result :=
  match rxByte s with
  | none => .next s
  | some (b, s1) => .next (s1.setReturned b)

/-- Row `BLOCK` (R81, R155): the frame of these fields is sent. "The next 131 bytes belong to it whatever their values"
(R94), but a frame is 132 bytes. -/
def execBlock (sequence complement : Byte) (payload : List Byte) (checksum : Byte) (s : State) : Result :=
  if payload.length = Config.payloadLen then .next (sendFrame (frameBytes sequence complement payload checksum) s)
  else .refused .operandLength

/-- Row `EOT` (R88, R156): the one byte 0x04 is sent; the answer is awaited after it. -/
def execEot (s : State) : Result :=
  match sendEotByte s with
  | none => .next s
  | some s1 => .next s1

end Sys2Proof.Machine
end

