-- ==== Sys2Proof/Machine/Controller.lean ====
section
/-! DEFINITION. Family of the state controller (43_controller.md R151 to R157): one operation per state. An operation
whose next port event has no answer yet waits: the state is as the events so far left it (R143). -/

namespace Sys2Proof.Machine

/-- The part of `OP_INIT` after a successful open: `BUILD_BLOCK(); raw_mode <- 1; state <- AWAIT_ACK` (R151). -/
def initBuild (s : State) : State :=
  match buildBlock s with
  | none => s
  | some s1 => (s1.setRawMode true).goto .awaitAck

/-- Row `OP_INIT` (R151). -/
def execOpInit (s : State) : Result :=
  if s.progress = .opened then .next (initBuild s)
  else
    match srcOpen s with
    | none => .next s
    | some (false, s1) => .next (s1.takeCondition .sourceUnavailable)
    | some (true, s1) => .next (initBuild ((s1.setFileOpen true).setProgress .opened))

/-- Row `OP_AWAIT_ACK` (R152): `AWAIT_BYTE`, then the row the byte falls in. -/
def execOpAwaitAck (s : State) : Result :=
  match rxByte s with
  | none => .next s
  | some (c, s1) =>
    if c = Config.CAN then execCan s1
    else if c = Config.ACK then execAck s1
    else if c = Config.NAK then execNak s1
    else execIgnored c s1

/-- Row `OP_ADVANCE` (R153). -/
def execOpAdvance (s : State) : Result :=
  if s.eofFlag then .next (s.goto .sendEot)
  else .next ((s.setBlockNumber (s.blockNumber + 1#8)).goto .build)

/-- Row `OP_BUILD` (R154): `BUILD_BLOCK(); state <- SEND`. Precondition `file_open` = 1 (R120). -/
def execOpBuild (s : State) : Result :=
  if s.fileOpen then
    match buildBlock s with
    | none => .next s
    | some s1 => .next (s1.goto .send)
  else .fault .sourceNotOpen

/-- Row `OP_SEND` (R155): `EMIT(current_block[0 .. 131]); state <- AWAIT_ACK`. -/
def execOpSend (s : State) : Result := .next (sendFrame (s.currentBlock.readRange 0 Config.frameLen) s)

/-- The part of `OP_SEND_EOT` after the EOT is handed over: `AWAIT_BYTE`, then row `EOT_RESPONSE` (R156). -/
def eotAnswer (s : State) : Result :=
  match rxByte s with
  | none => .next s
  | some (c, s1) => execEotResponse c s1

/-- Row `OP_SEND_EOT` (R156). -/
def execOpSendEot (s : State) : Result :=
  if s.progress = .eotSent then eotAnswer s
  else
    match sendEotByte s with
    | none => .next s
    | some s1 => eotAnswer s1

/-- Row `OP_DONE` (R157): release the source if it is open, then the channel mode; `state` and `done_cause` stay. -/
def execOpDone (s : State) : Result := .next s.release

end Sys2Proof.Machine
end

