-- ==== Sys2Proof/Machine/Dispatch.lean ====
section
/-! DEFINITION. One arm per row of spec/opcode_table.json. -/

namespace Sys2Proof.Machine

def exec (i : Instr) (s : State) : Host.Outcome State Fault Refusal :=
  match i with
  | .ack => Sys2Proof.Machine.execAck s
  | .nak => Sys2Proof.Machine.execNak s
  | .can => Sys2Proof.Machine.execCan s
  | .ignored b => Sys2Proof.Machine.execIgnored b s
  | .eotResponse b => Sys2Proof.Machine.execEotResponse b s
  | .block q c p k => Sys2Proof.Machine.execBlock q c p k s
  | .eot => Sys2Proof.Machine.execEot s
  | .opInit => Sys2Proof.Machine.execOpInit s
  | .opAwaitAck => Sys2Proof.Machine.execOpAwaitAck s
  | .opAdvance => Sys2Proof.Machine.execOpAdvance s
  | .opBuild => Sys2Proof.Machine.execOpBuild s
  | .opSend => Sys2Proof.Machine.execOpSend s
  | .opSendEot => Sys2Proof.Machine.execOpSendEot s
  | .opDone => Sys2Proof.Machine.execOpDone s
  | .checksum8 p => Sys2Proof.Machine.execChecksum8 p s
  | .buildBlock => Sys2Proof.Machine.execBuildBlock s
  | .emit bs => Sys2Proof.Machine.execEmit bs s
  | .awaitByte => Sys2Proof.Machine.execAwaitByte s

end Sys2Proof.Machine
end

