-- ==== Sys2Proof/Machine/Fetch.lean ====
section
/-! DEFINITION. Which operation the next step performs (43_controller.md R163), and a state placed so that it is a
given one. -/

namespace Sys2Proof.Machine

/-- The operation `state` selects (R92, R163). -/
def fetch (s : State) : Instr :=
  match s.state with
  | .init => .opInit
  | .awaitAck => .opAwaitAck
  | .advance => .opAdvance
  | .build => .opBuild
  | .send => .opSend
  | .sendEot => .opSendEot
  | .done => .opDone

/-- `s` with all set that makes an instruction the next to run (log entry 8). A control byte is put first in the inbound
channel of a unit in `AWAIT_ACK`; the EOT's answer first in that of a unit that has sent the EOT; a frame into the
buffer of a unit in `SEND`; the EOT is what a unit in `SEND_EOT` sends, and no byte waits, so that the step ends there.
A controller operation is selected by its state, `OP_BUILD` and `OP_DONE` with the source open, which `OP_BUILD` needs
(R154) and without which `OP_DONE` is not enabled (R159). A component function is selected by no field (R96). -/
def State.present (i : Instr) (s : State) : State :=
  match i with
  | .ack => (s.goto .awaitAck).setRx (Config.ACK :: s.rx)
  | .nak => (s.goto .awaitAck).setRx (Config.NAK :: s.rx)
  | .can => (s.goto .awaitAck).setRx (Config.CAN :: s.rx)
  | .ignored b => (s.goto .awaitAck).setRx (b :: s.rx)
  | .eotResponse b => ((s.goto .sendEot).setProgress .eotSent).setRx (b :: s.rx)
  | .block q c p k => (s.goto .send).setCurrentBlock (Memory.writeRange [] 0 (frameBytes q c p k))
  | .eot => (s.goto .sendEot).setRx []
  | .opInit => s.goto .init
  | .opAwaitAck => s.goto .awaitAck
  | .opAdvance => s.goto .advance
  | .opBuild => (s.goto .build).setFileOpen true
  | .opSend => s.goto .send
  | .opSendEot => s.goto .sendEot
  | .opDone => (s.goto .done).setFileOpen true
  | .checksum8 _ => s
  | .buildBlock => s
  | .emit _ => s
  | .awaitByte => s

end Sys2Proof.Machine
end

