-- ==== Sys2Proof/Machine/Step.lean ====
section
/-! DEFINITION. One step of the unit (43_controller.md R163). -/

namespace Sys2Proof.Machine

/-- One step: the operation of the current `state`, from start to end (R150, R163). In a final state the unit has no
step and every register keeps its value (R159); while the unit is held nothing changes (R143): the answer is then the
state itself (log entry 1). -/
def step (s : State) : Host.Outcome State Fault Refusal :=
  if s.isFinal then .next s else exec (fetch s) s

/-- `s` placed so that the next step runs the instruction a word of spec/opcode_table.json stands for (log entry 8). -/
def State.withFetchWord (s : State) (nbits w : Nat) : State :=
  match decodeTableWord nbits w with
  | some i => s.present i
  | none => s

end Sys2Proof.Machine
end

