-- ==== Sys2Proof/Machine/Environment.lean ====
section
/-! DEFINITION. What the other three agents can do to the unit and see of it (00_scope.md R8; 10_state.md R31;
70_reset_and_hazards.md R210, R213): inputs between steps, reset, the status outputs, the outbound stream. -/

namespace Sys2Proof.Machine

/-- An act of the environment at a step boundary. A byte that comes while an operation runs is read by the next `Rx` all
the same (R54; log entry 16). -/
inductive Input where
  | idle
  | peerSends (b : Byte)            -- one more inbound byte (R54)
  | channelRoom (r : Option Nat)    -- how many outbound bytes the channel takes from now on (R53)
  | sourceReady (r : Option Nat)    -- how many requests the source answers from now on (R52)
deriving DecidableEq, Repr

/-- The unread bytes after the peer sent one. With `RX_DEPTH` bounded and the channel full, what survives is the
channel's choice (R54, U9): a free value, of at most `RX_DEPTH` bytes. -/
def rxAfter (depth : Option Nat) (unread : List Byte) (b : Byte) : List Byte :=
  match depth with
  | none => unread ++ [b]
  | some d => if unread.length < d then unread ++ [b] else (Config.rxOverflow unread b).take d

/-- The state after an input. No register of the unit changes. -/
def State.receive : Input → State → State
  | .idle, s => s
  | .peerSends b, s => s.setRx (rxAfter s.rxDepth s.rx b)
  | .channelRoom r, s => s.setTxReady r
  | .sourceReady r, s => s.setSrcReady r

/-- A run: an input, then a step, for each input of the list. -/
def runInputs : List Input → State → Result
  | [], s => .next s
  | e :: es, s =>
    match step (s.receive e) with
    | .next s1 => runInputs es s1
    | .fault r => .fault r
    | .refused r => .refused r

/-- The inputs of a session (R36): a source content, whether it can be opened, and the inbound bytes, placed from
outside the unit (R214; log entry 8). -/
def State.withSession (content : List Byte) (opens : Bool) (inbound : List Byte) (s : State) : State :=
  { s with srcContent := content, srcOpens := opens, rx := inbound }

/-- No operation of the session has begun: the unit stands as reset left it (R212). -/
def State.atStart (s : State) : Bool := decide (s.state = .init) && decide (s.progress = .idle)

/-- The registers as reset leaves them and a new trace; the environment keeps what it holds, unread inbound bytes
included (R210, R211, R219). -/
def State.afterReset (s : State) : State :=
  { State.reset with
    srcContent := s.srcContent, srcPos := s.srcPos, srcOpens := s.srcOpens, srcShort := s.srcShort,
    srcReady := s.srcReady, rx := s.rx, rxDepth := s.rxDepth, txReady := s.txReady }

/-- Reset, the host's only command (R210, R31). Taken at power-on or in a final state, refused in the middle of a
session (R213, D26, U7; log entry 9). -/
def hostReset (s : State) : Result :=
  if s.isFinal || s.atStart then .next s.afterReset else .refused .resetMidSession

/-- The read-only level outputs of R31, with the codes of R92 and R93. Reading them has no side effect. -/
structure Outputs where
  state : StateCode
  blockNumber : Byte
  eofFlag : Bool
  currentBlock : List Byte
  fileOpen : Bool
  rawMode : Bool
  doneCause : CauseCode
deriving DecidableEq, Repr

/-- What the host reads (R31). -/
def State.outputs (s : State) : Outputs where
  state := s.state.code
  blockNumber := s.blockNumber
  eofFlag := s.eofFlag
  currentBlock := s.currentBlock.readRange 0 Config.frameLen
  fileOpen := s.fileOpen
  rawMode := s.rawMode
  doneCause := s.doneCause.code

/-- The outbound byte of an event. -/
def Event.txByte? : Event → Option Byte
  | .tx b => some b
  | _ => none

/-- The inbound byte of an event. -/
def Event.rxByte? : Event → Option Byte
  | .rx b => some b
  | _ => none

/-- Whether an event is an answered read of the source. -/
def Event.isRead : Event → Bool
  | .srcRead _ => true
  | _ => false

/-- The outbound stream of a trace (R50 (c)). -/
def outboundOf (es : List Event) : List Byte := es.filterMap Event.txByte?

/-- The inbound bytes a trace consumed (R50 (d)). -/
def inboundOf (es : List Event) : List Byte := es.filterMap Event.rxByte?

/-- Whether an event is a read of the byte ACK. -/
def Event.isAck (e : Event) : Bool := decide (e = .rx Config.ACK)

/-- How many ACK bytes a trace has read. -/
def acksIn (es : List Event) : Nat := es.countP Event.isAck

/-- How many blocks a trace has built: one `SrcRead` a build (R120). -/
def readsIn (es : List Event) : Nat := es.countP Event.isRead

end Sys2Proof.Machine
end

