-- ==== Sys2Proof/Safety.lean ====
section
/-! DEFINITION. What counts as a sound state of the unit, in the terms the statements use: the facts of 10_state.md R35,
the canonical form of the buffer, and the shape of the outbound stream. -/

namespace Sys2Proof.Machine

/-- A state between `INIT` and the end that has opened the source: everything but `INIT` and `DONE`. -/
def CtrlState.running : CtrlState → Bool
  | .init => false
  | .awaitAck => true
  | .advance => true
  | .build => true
  | .send => true
  | .sendEot => true
  | .done => false

/-- The byte at an offset of the frame buffer. -/
@[simp] abbrev State.bufferByte (s : State) (a : Nat) : Byte := s.currentBlock.read a

/-- The whole buffer, offset 0 first. -/
@[simp] abbrev State.bufferBytes (s : State) : List Byte := s.currentBlock.readRange 0 Config.frameLen

/-- What holds of every state a run reaches (R35 and the rules it is derived from). -/
structure State.Inv (s : State) : Prop where
  /-- The buffer keeps its canonical form, and no offset of 132 or above exists (R51). -/
  bufferWf : s.currentBlock.wf = true
  /-- R35 (a): once a block was built, the buffer holds a frame. -/
  startMarker : s.state ≠ .init → s.doneCause ≠ .sourceUnavailable → s.bufferByte 0 = Config.SOH
  /-- R35 (a): its sequence is the block number plus one; in `BUILD` the counter is already one ahead. -/
  sequence : s.state ≠ .init → s.doneCause ≠ .sourceUnavailable →
    s.bufferByte 1 = if s.state = .build then s.blockNumber else s.blockNumber + 1#8
  /-- R35 (a): sequence and complement add to 255. -/
  complement : s.state ≠ .init → s.doneCause ≠ .sourceUnavailable →
    (s.bufferByte 1).toNat + (s.bufferByte 2).toNat = 255
  /-- R35 (a): its last byte is the checksum of its payload. -/
  checksum : s.state ≠ .init → s.doneCause ≠ .sourceUnavailable →
    s.bufferByte 131 = checksumOf (s.currentBlock.readRange 3 128)
  /-- R35 (b): the source is open from the end of `OP_INIT` to the end of `OP_DONE`. -/
  openWhileRunning : s.state.running = true → s.fileOpen = true
  /-- In `INIT` the source is open only in the middle of the operation (log entry 2). -/
  openInInit : s.state = .init → (s.fileOpen = true ↔ s.progress = .opened)
  /-- R35 (b): `raw_mode` equals `file_open` at every step boundary. -/
  rawFollowsOpen : s.progress ≠ .opened → s.rawMode = s.fileOpen
  /-- R151: `raw_mode` rises at the end of `OP_INIT`. -/
  rawLowInInit : s.state = .init → s.rawMode = false
  /-- R35 (c): the cause is written exactly when `DONE` is entered. -/
  causeIffDone : s.doneCause = .none ↔ s.state ≠ .done
  /-- R151, R181: a session whose source could not be opened owns nothing. -/
  nothingOpenOnFailure : s.doneCause = .sourceUnavailable → s.fileOpen = false
  /-- R35 (d): the EOT is sent only after the end of the source was seen. -/
  eofAtEot : s.state = .sendEot → s.eofFlag = true
  /-- R153: a completed session has seen the end of the source. -/
  eofAtComplete : s.doneCause = .complete → s.eofFlag = true
  /-- R23: no block is built once the flag is set. -/
  noBuildAfterEof : s.state = .build → s.eofFlag = false
  /-- R34: nothing of a session has happened in `INIT`. -/
  freshInInit : s.state = .init → s.blockNumber = 0#8 ∧ s.eofFlag = false
  /-- A mark of a half-done operation stands only in that operation's state. -/
  openedInInit : s.progress = .opened → s.state = .init
  /-- A frame half sent has sent at least one byte and not all. -/
  sendingInSend : ∀ k, s.progress = .sending k → s.state = .send ∧ 0 < k ∧ k < 132
  /-- R156: the EOT is out and unanswered only in `SEND_EOT`. -/
  eotSentInSendEot : s.progress = .eotSent → s.state = .sendEot

/-- A frame the unit sends (R81 to R86, R129). -/
def IsFrame (f : List Byte) : Prop :=
  ∃ q p, p.length = 128 ∧ f = frameBytes q (complementByte q) p (checksumOf p)

/-- The part of the outbound stream after its last whole frame: the bytes of a frame half sent, or the one ending byte,
or nothing (R94). -/
def State.outboundTail (s : State) : List Byte :=
  if s.state = .send then s.bufferBytes.take s.progress.sentSoFar
  else if s.progress = .eotSent ∨ s.doneCause = .complete then [Config.EOT]
  else []

/-- R94, R87, R88: the outbound stream is zero or more frames, then at most one EOT, which is last. -/
def State.OutboundShape (s : State) : Prop :=
  ∃ frames : List (List Byte), (∀ f ∈ frames, IsFrame f) ∧ outboundOf s.trace = frames.flatten ++ s.outboundTail

/-- How many blocks were built, against the block counter (R22, R120): the counter counts builds from 0, modulo 256, and
is one ahead only in `BUILD`. -/
def State.CounterCountsReads (s : State) : Prop :=
  if s.state = .init ∨ s.doneCause = .sourceUnavailable then readsIn s.trace = 0
  else if s.state = .build then s.blockNumber = BitVec.ofNat 8 (readsIn s.trace)
  else s.blockNumber + 1#8 = BitVec.ofNat 8 (readsIn s.trace)

/-- The source's read position against the number of builds (R52, R57): 0 after the open, and 128 a build for as long as
no read has answered fewer than 128 bytes. -/
def State.ReadsAreFull (s : State) : Prop :=
  (s.progress = .opened → s.srcPos = 0) ∧ (s.state = .init → readsIn s.trace = 0) ∧
  (s.state ≠ .init → s.doneCause ≠ .sourceUnavailable → s.eofFlag = false → s.srcPos = 128 * readsIn s.trace)

/-- The block counter against the ACKs read (R161): equal modulo 256 whenever a frame can be sent or is awaited; in `ADVANCE`
the ACK is read and the counter has not moved yet. -/
def State.AcksCountBlocks (s : State) : Prop :=
  (s.state = .init → acksIn s.trace = 0) ∧
  (s.state = .awaitAck ∨ s.state = .send ∨ s.state = .build → s.blockNumber = BitVec.ofNat 8 (acksIn s.trace)) ∧
  (s.state = .advance → s.blockNumber + 1#8 = BitVec.ofNat 8 (acksIn s.trace))

/-- One round of a session's trace (R165): a byte ignored; a rejection and the frame again; or an ACK, a read and the next
frame. -/
def IsRound (es : List Event) : Prop :=
  (∃ b, b ≠ Config.ACK ∧ b ≠ Config.NAK ∧ b ≠ Config.CAN ∧ es = [.rx b]) ∨
  (∃ f, IsFrame f ∧ es = .rx Config.NAK :: f.map .tx) ∨
  (∃ d f, IsFrame f ∧ es = .rx Config.ACK :: .srcRead d :: f.map .tx)

/-- The trace of a session that has ended, with the cause that goes with it (R165). -/
def IsCompleteTrace (es : List Event) (cause : DoneCause) : Prop :=
  (es = [.srcOpenFail] ∧ cause = .sourceUnavailable) ∨
  ∃ (d : List Byte) (rounds : List (List Event)), (∀ r ∈ rounds, IsRound r) ∧
    ((cause = .complete ∧ ∃ b, es = [.srcOpenOk, .srcRead d] ++ rounds.flatten ++
        [.rx Config.ACK, .tx Config.EOT, .rx b, .srcClose]) ∨
     (cause = .peerCancelled ∧ es = [.srcOpenOk, .srcRead d] ++ rounds.flatten ++ [.rx Config.CAN, .srcClose]))

/-- The trace of a session between two rounds: the open, the first read, and whole rounds (R165). -/
def IsOpenTrace (es : List Event) : Prop :=
  ∃ (d : List Byte) (rounds : List (List Event)), (∀ r ∈ rounds, IsRound r) ∧
    es = [.srcOpenOk, .srcRead d] ++ rounds.flatten

/-- The trace so far, by state (R165): whole rounds in `AWAIT_ACK`, whole rounds and the part of one elsewhere; in `DONE`
the trace the session has once the source is closed. -/
def State.TraceSoFar (s : State) : Prop :=
  match s.state with
  | .init => s.trace = if s.progress = .opened then [.srcOpenOk] else []
  | .awaitAck => IsOpenTrace s.trace
  | .advance => ∃ p, IsOpenTrace p ∧ s.trace = p ++ [.rx Config.ACK]
  | .build => ∃ p, IsOpenTrace p ∧ s.trace = p ++ [.rx Config.ACK]
  | .send => ∃ p cause, IsOpenTrace p ∧ (cause = [.rx Config.NAK] ∨ ∃ d, cause = [.rx Config.ACK, .srcRead d]) ∧
      s.trace = p ++ cause ++ (s.bufferBytes.take s.progress.sentSoFar).map Event.tx
  | .sendEot => ∃ p, IsOpenTrace p ∧
      s.trace = p ++ [.rx Config.ACK] ++ if s.progress = .eotSent then [.tx Config.EOT] else []
  | .done => IsCompleteTrace (s.trace ++ if s.fileOpen then [.srcClose] else []) s.doneCause

/-- The frame a build leaves for a block number and the bytes it read, as the one expression of R128. -/
def builtFrame (blockNumber : Byte) (d : List Byte) : List Byte :=
  [0x01#8, blockNumber + 1#8, 0xFF#8 - (blockNumber + 1#8)] ++ d ++ List.replicate (128 - d.length) 0x00#8 ++
    [BitVec.ofNat 8 ((d.map BitVec.toNat).sum % 256)]

/-- The frame of block `k` of a source content (R128, R132). -/
def frameOf (content : List Byte) (k : Nat) : List Byte :=
  let d := (content.drop (128 * k)).take 128
  [0x01#8, BitVec.ofNat 8 (k + 1), 0xFF#8 - BitVec.ofNat 8 (k + 1)] ++ d ++ List.replicate (128 - d.length) 0x00#8 ++
    [BitVec.ofNat 8 ((d.map BitVec.toNat).sum % 256)]

end Sys2Proof.Machine
end

