-- ==== Sys2Proof/WellFormed.lean ====
section
/-! DEFINITION. Which terms of `Instr` stand for an operation the unit has. -/

namespace Sys2Proof

/-- The operands an operation may have. `IGNORED` is the default row: not one of the three recognised values (R89,
R90). A `BLOCK` carries 128 payload bytes (R85), the complement of its sequence (R84) and the checksum of its payload
(R86). `CHECKSUM8` takes 128 bytes (R111). `EMIT` is given a frame or the one EOT byte's length (R140). -/
def Instr.wf : Instr → Bool
  | .ack => true
  | .nak => true
  | .can => true
  | .ignored b => b != Config.ACK && b != Config.NAK && b != Config.CAN
  | .eotResponse _ => true
  | .block q c p k =>
    p.length == Config.payloadLen && c == Machine.complementByte q && k == Machine.checksumOf p
  | .eot => true
  | .opInit => true
  | .opAwaitAck => true
  | .opAdvance => true
  | .opBuild => true
  | .opSend => true
  | .opSendEot => true
  | .opDone => true
  | .checksum8 p => p.length == Config.payloadLen
  | .buildBlock => true
  | .emit bs => bs.length == Config.frameLen || bs.length == 1
  | .awaitByte => true

end Sys2Proof
end

