-- ==== Sys2Proof/Certificates/Slice0/Obligations.lean ====
section
/-! DEFINITION. The statements for the provers. Each docstring names the rules of spec/ it formalises. The `progress`
mark, the idle answer of a unit that is held or final, `returned`, and the source's and the channel's readiness are the
model's own (log entries 1, 2, 4, 5); a statement that speaks of one says so. -/

open Sys2Proof Sys2Proof.Machine

/-! ## Reset and the host -/

/-- R34: the register values after reset; and no event has happened, and the first step is `OP_INIT` (R210). The
unspecified `current_block` is not spoken of. -/
def Obligations.ResetLeavesRegisters : Prop :=
  State.reset.state = .init ∧ State.reset.blockNumber = 0#8 ∧ State.reset.eofFlag = false ∧
  State.reset.fileOpen = false ∧ State.reset.rawMode = false ∧ State.reset.doneCause = .none ∧
  State.reset.trace = [] ∧ step State.reset = exec .opInit State.reset

/-- R213, D26, U7 (refused in mid-session, the model's choice of log entry 9) and R210, R219 (else the registers take
their reset values and unread inbound bytes stay). -/
def Obligations.HostResetOnlyAtEnds : Prop :=
  ∀ s : State,
    ((s.isFinal = true ∨ s.atStart = true) →
      ∃ t, hostReset s = .next t ∧ t.state = .init ∧ t.blockNumber = 0#8 ∧ t.eofFlag = false ∧ t.fileOpen = false ∧
        t.rawMode = false ∧ t.doneCause = .none ∧ t.trace = [] ∧ t.rx = s.rx) ∧
    (s.isFinal = false → s.atStart = false → hostReset s = .refused .resetMidSession)

/-- R31: the seven registers are what the host reads, in the codes of R92 and R93. -/
def Obligations.OutputsShowRegisters : Prop :=
  ∀ s : State, s.outputs.state = s.state.code ∧ s.outputs.blockNumber = s.blockNumber ∧
    s.outputs.eofFlag = s.eofFlag ∧ s.outputs.fileOpen = s.fileOpen ∧ s.outputs.rawMode = s.rawMode ∧
    s.outputs.doneCause = s.doneCause.code ∧
    s.outputs.currentBlock.length = 132 ∧ ∀ a, a < 132 → s.outputs.currentBlock[a]? = some (s.bufferByte a)

/-! ## Encodings -/

/-- R92: the state codes, the operation each selects, and code 7, which names no state and no operation, is no state's code
and not what reset writes. -/
def Obligations.StateCodesSelectOperations : Prop :=
  CtrlState.init.code = 0#3 ∧ CtrlState.awaitAck.code = 1#3 ∧ CtrlState.advance.code = 2#3 ∧
  CtrlState.build.code = 3#3 ∧ CtrlState.send.code = 4#3 ∧ CtrlState.sendEot.code = 5#3 ∧ CtrlState.done.code = 6#3 ∧
  (∀ t : CtrlState, CtrlState.ofCode t.code = some t) ∧ CtrlState.ofCode 7#3 = none ∧
  (∀ s : State, decodeStateCode s.state.code = some (fetch s)) ∧ decodeStateCode 7#3 = none ∧
  (∀ t : CtrlState, t.code ≠ 7#3) ∧ State.reset.state.code = 0#3 ∧
  (fetch <| State.reset.goto .init) = .opInit ∧ (fetch <| State.reset.goto .awaitAck) = .opAwaitAck ∧
  (fetch <| State.reset.goto .advance) = .opAdvance ∧ (fetch <| State.reset.goto .build) = .opBuild ∧
  (fetch <| State.reset.goto .send) = .opSend ∧ (fetch <| State.reset.goto .sendEot) = .opSendEot ∧
  (fetch <| State.reset.goto .done) = .opDone

/-- R93: the cause codes; all four are used. -/
def Obligations.CauseCodesAreFour : Prop :=
  DoneCause.none.code = 0#2 ∧ DoneCause.complete.code = 1#2 ∧ DoneCause.peerCancelled.code = 2#2 ∧
  DoneCause.sourceUnavailable.code = 3#2 ∧ (∀ c, DoneCause.ofCode c.code = c) ∧ ∀ k, (DoneCause.ofCode k).code = k

/-- Words written from R81, R88, R89, R91 and R92 decode to the operations they stand for; bytes that are no word are
refused by name. -/
def Obligations.TableWordsDecode : Prop :=
  decode .awaitAck [0x06#8] = .instr .ack [] ∧ decode .awaitAck [0x15#8] = .instr .nak [] ∧
  decode .awaitAck [0x18#8] = .instr .can [] ∧ decode .awaitAck [0x43#8] = .instr (.ignored 0x43#8) [] ∧
  decode .sendEot [0x18#8] = .instr (.eotResponse 0x18#8) [] ∧ decode .outbound [0x04#8] = .instr .eot [] ∧
  decode .stateReg [4#8] = .instr .opSend [] ∧ decode .stateReg [7#8] = .rejected .stateCodeSeven ∧
  decode .outbound [0x02#8] = .rejected .noItemStartsSo ∧ decode .outbound [0x01#8, 0x01#8] = .rejected .shortFrame

/-- The encoding and the decoder agree: every well-formed operation that has an encoding is read back from it, with
every operand, whatever bytes come after (R81, R88, R89, R90, R91, R92). -/
def Obligations.DecodeOfEncode : Prop :=
  ∀ (i : Instr) (sp : Space) (ws rest : List Byte),
    i.wf = true → encode i = some (sp, ws) → decode sp (ws ++ rest) = .instr i rest

/-- No two words of one space stand for the same operation: what the decoder read is the encoding of what it answers. -/
def Obligations.EncodeOfDecode : Prop :=
  ∀ (sp : Space) (bs rest : List Byte) (i : Instr),
    decode sp bs = .instr i rest → ∃ ws, encode i = some (sp, ws) ∧ bs = ws ++ rest

/-- R94: a reader of the outbound stream that starts at an item boundary cuts any run of frames and the ending after it
into just those items. -/
def Obligations.ReaderCutsOutboundStream : Prop :=
  ∀ frames : List (List Byte), (∀ f ∈ frames, IsFrame f) →
    ∃ blocks : List Instr, blocks.map encode = frames.map (fun f => some (Space.outbound, f)) ∧
      (∀ i ∈ blocks, i.wf = true) ∧
      decodeStream (frames.length + 1) (frames.flatten ++ [0x04#8]) = (blocks ++ [.eot], [])

/-- R89, R90: the decode of a control byte is total and each byte falls in exactly one row; a byte other than the three
is the default row. -/
def Obligations.ControlByteFallsInOneRow : Prop :=
  ∀ c : Byte, (decodeCtrlIn c = .ack ↔ c = 0x06#8) ∧ (decodeCtrlIn c = .nak ↔ c = 0x15#8) ∧
    (decodeCtrlIn c = .can ↔ c = 0x18#8) ∧
    (decodeCtrlIn c = .ignored c ↔ c ≠ 0x06#8 ∧ c ≠ 0x15#8 ∧ c ≠ 0x18#8) ∧ (decodeCtrlIn c).wf = true

/-! ## A step runs the decoded operation -/

/-- R163: the step performs the operation that `state` selects; `OP_DONE` only while the session is not final. -/
def Obligations.StepRunsStateOperation : Prop :=
  ∀ s : State, (s.state = .done → s.isFinal = false) →
    step s = exec (fetch s) s ∧ decode .stateReg [BitVec.ofNat 8 s.state.code.toNat] = .instr (fetch s) []

/-- R152, R89: in `AWAIT_ACK` the step consumes the oldest inbound byte (one `Rx` event) and runs the row it decodes
to. -/
def Obligations.StepRunsControlByte : Prop :=
  ∀ (s : State) (c : Byte) (rest : List Byte), s.state = .awaitAck → s.rx = c :: rest →
    step s = exec (decodeCtrlIn c) { s with rx := rest, trace := s.trace ++ [.rx c] }

/-- R155, R81: in `SEND` the step runs the `BLOCK` row of the frame that stands in the buffer. -/
def Obligations.StepRunsFrameInBuffer : Prop :=
  ∀ (s : State) (q c : Byte) (p : List Byte) (k : Byte), s.state = .send → p.length = 128 →
    decode .outbound s.bufferBytes = .instr (.block q c p k) [] → step s = exec (.block q c p k) s

/-- R156, R88, R91: in `SEND_EOT` the step runs the row `EOT`, and ends there while no answer has come; once the EOT is
out (the mark of log entry 2) it consumes the oldest inbound byte and runs the row `EOT_RESPONSE`. -/
def Obligations.StepRunsEotAndAnswer : Prop :=
  ∀ s : State, s.state = .sendEot →
    (s.progress ≠ .eotSent → s.rx = [] → step s = exec .eot s) ∧
    (∀ c rest, s.progress = .eotSent → s.rx = c :: rest →
      step s = exec (.eotResponse c) { s with rx := rest, trace := s.trace ++ [.rx c] })

/-! ## The checksum unit -/

/-- R110, R111, R113: on 128 bytes the row completes, hands back their sum modulo 256 (in the model's own `returned`,
log entry 5) and writes nothing else; on any other length it has no meaning. -/
def Obligations.ChecksumRowSumsBytes : Prop :=
  ∀ (s : State) (p : List Byte),
    (p.length = 128 → exec (.checksum8 p) s =
      .next { s with returned := BitVec.ofNat 8 ((p.map BitVec.toNat).sum % 256) }) ∧
    (p.length ≠ 128 → exec (.checksum8 p) s = .refused .operandLength)

/-- R110: the two pseudocodes of the checksum, the widened sum and the wrapping accumulator, agree. -/
def Obligations.ChecksumAccumulatorAgrees : Prop :=
  ∀ p : List Byte, checksumAcc p = checksumOf p

/-- R115 (a) to (f): the range; order, zero bytes and signedness do not matter; one byte changed by `delta` changes the
checksum by `delta`, so it is seen, and two changes that cancel are not; the checksum of a concatenation is the sum of the
parts'. -/
def Obligations.ChecksumLawsHold : Prop :=
  (∀ p : List Byte, (checksumOf p).toNat ≤ 255) ∧
  (∀ p q : List Byte, p.Perm q → checksumOf p = checksumOf q) ∧
  (∀ (d : List Byte) (n : Nat),
    (checksumOf (d ++ List.replicate n 0x00#8)).toNat = (d.map BitVec.toNat).sum % 256) ∧
  (∀ (xs ys : List Byte) (b delta : Byte), checksumOf (xs ++ (b + delta) :: ys) = checksumOf (xs ++ b :: ys) + delta) ∧
  (∀ (xs ys : List Byte) (b b' : Byte), b ≠ b' → checksumOf (xs ++ b :: ys) ≠ checksumOf (xs ++ b' :: ys)) ∧
  (∀ (xs ys zs : List Byte) (b c k : Byte),
    checksumOf (xs ++ (b + k) :: ys ++ (c - k) :: zs) = checksumOf (xs ++ b :: ys ++ c :: zs)) ∧
  (∀ p : List Byte, checksumOf p = BitVec.ofInt 8 ((p.map BitVec.toInt).sum)) ∧
  (∀ p q : List Byte, checksumOf (p ++ q) = checksumOf p + checksumOf q)

/-! ## The block framer -/

/-- R128, R120, R123, R154: with the source open and answering, `BUILD_BLOCK` completes. The read takes up to 128 bytes
from the position (fewer from a source that breaks its contract, R226). The buffer then holds the frame of R128, no
offset above 131 is touched, `eof_flag` is set exactly by a read of fewer than 128 bytes and otherwise left, and
nothing else of the unit is written; `OP_BUILD` does the same and goes to `SEND`. -/
def Obligations.BuildBlockLeavesFrame : Prop :=
  ∀ (s : State) (d : List Byte), s.fileOpen = true → s.srcReady ≠ some 0 →
    d = (s.srcContent.drop s.srcPos).take (min 128 (s.srcShort.headD 128)) →
    ∃ m : Memory,
      m.readRange 0 132 = [0x01#8, s.blockNumber + 1#8, 0xFF#8 - (s.blockNumber + 1#8)] ++ d ++
        List.replicate (128 - d.length) 0x00#8 ++ [BitVec.ofNat 8 ((d.map BitVec.toNat).sum % 256)] ∧
      (∀ a, 132 ≤ a → m.read a = s.currentBlock.read a) ∧
      exec .buildBlock s = .next { s with
        currentBlock := m, eofFlag := s.eofFlag || decide (d.length < 128),
        srcPos := s.srcPos + d.length, srcShort := s.srcShort.tail, srcReady := s.srcReady.map (· - 1),
        trace := s.trace ++ [.srcRead d] } ∧
      exec .opBuild s = .next { s with
        state := .send, progress := .idle,
        currentBlock := m, eofFlag := s.eofFlag || decide (d.length < 128),
        srcPos := s.srcPos + d.length, srcShort := s.srcShort.tail, srcReady := s.srcReady.map (· - 1),
        trace := s.trace ++ [.srcRead d] }

/-- R120: the precondition `file_open` = 1. Outside it the model stops by name (log entry 6). -/
def Obligations.BuildNeedsOpenSource : Prop :=
  ∀ s : State, s.fileOpen = false →
    exec .buildBlock s = .fault .sourceNotOpen ∧ exec .opBuild s = .fault .sourceNotOpen

/-- R122: after a build that read `d`, payload byte `i` is `d[i]` while there are data and 0x00 after them, whatever the
buffer held before. -/
def Obligations.PadBytesAreZero : Prop :=
  ∀ (s t : State) (d : List Byte), exec .buildBlock s = .next t → t.trace = s.trace ++ [.srcRead d] →
    d.length ≤ 128 ∧ (∀ i, (h : i < d.length) → t.bufferByte (3 + i) = d[i]) ∧
    (∀ i, d.length ≤ i → i < 128 → t.bufferByte (3 + i) = 0x00#8)

/-- R129: in every built frame, for all 256 block numbers, byte 0 is 0x01, sequence and complement add to 255, and the
last byte is the sum of the 128 payload bytes of the buffer modulo 256. -/
def Obligations.BuiltFramesCheckOut : Prop :=
  ∀ (s t : State) (d : List Byte), exec .buildBlock s = .next t → t.trace = s.trace ++ [.srcRead d] →
    t.bufferByte 0 = 0x01#8 ∧ (t.bufferByte 1).toNat = (s.blockNumber.toNat + 1) % 256 ∧
    (t.bufferByte 1).toNat + (t.bufferByte 2).toNat = 255 ∧
    (t.bufferByte 131).toNat = (((t.currentBlock.readRange 3 128).map BitVec.toNat).sum) % 256

/-- U1, C7: for a source that keeps its contract and whose length is not a positive multiple of 128, the two readings
of the end-of-file flag agree on every read. -/
def Obligations.EofPoliciesAgreeOffMultiples : Prop :=
  ∀ L p n : Nat, (L % 128 ≠ 0 ∨ L = 0) → p % 128 = 0 → p ≤ L → n = min 128 (L - p) →
    eofSeen .shortRead n (L - (p + n)) = eofSeen .emptied n (L - (p + n))

/-! ## The link driver -/

/-- R140, R143: `EMIT` hands over every byte in index order, each once, unchanged, and writes no register. From where a
waiting emission stopped (the mark of log entry 2; offset 0 with no mark), with a channel that takes the rest the
emission ends; with a channel that takes only `r` more, exactly those go out and the unit waits. -/
def Obligations.EmitSendsInOrder : Prop :=
  ∀ (s : State) (bs : List Byte) (k : Nat), k = s.progress.sentSoFar →
    ((∀ r, s.txReady = some r → bs.length - k ≤ r) → exec (.emit bs) s = .next { s with
      trace := s.trace ++ (bs.drop k).map Event.tx, txReady := s.txReady.map (· - (bs.length - k)),
      progress := .idle }) ∧
    (∀ r, s.txReady = some r → r < bs.length - k → exec (.emit bs) s = .next { s with
      trace := s.trace ++ ((bs.drop k).take r).map Event.tx, txReady := some 0,
      progress := if r = 0 then s.progress else .sending (k + r) })

/-- R142: `AWAIT_BYTE` consumes exactly the oldest inbound byte and hands it back (in the model's own `returned`, log
entry 5); while there is none the unit waits and nothing changes. -/
def Obligations.AwaitByteTakesOldest : Prop :=
  ∀ s : State,
    (∀ b rest, s.rx = b :: rest →
      exec .awaitByte s = .next { s with rx := rest, trace := s.trace ++ [.rx b], returned := b }) ∧
    (s.rx = [] → exec .awaitByte s = .next s)

/-- R88: with a channel that takes it, the row `EOT` sends the one byte 0x04 and writes no register (the mark is the
model's, log entry 2). -/
def Obligations.EotRowSendsOneByte : Prop :=
  ∀ s : State, s.txReady ≠ some 0 →
    exec .eot s = .next { s with
      trace := s.trace ++ [.tx 0x04#8], txReady := s.txReady.map (· - 1), progress := .eotSent }

/-- R141, R60: a frame that the channel stalls after `r` of its bytes has sent exactly those, in order, and written no
register and read no byte; when the channel takes bytes again the frame goes on to its end, and the outcome is the one
without a stall. The half-way step and its mark are the model's choice of log entry 2. -/
def Obligations.StalledFrameGoesOn : Prop :=
  ∀ (s : State) (r : Nat), s.state = .send → s.progress = .idle → s.txReady = some r → r < 132 →
    ∃ t, step s = .next t ∧ t.trace = s.trace ++ (s.bufferBytes.take r).map Event.tx ∧
      t.state = .send ∧ t.blockNumber = s.blockNumber ∧ t.eofFlag = s.eofFlag ∧ t.currentBlock = s.currentBlock ∧
      t.fileOpen = s.fileOpen ∧ t.rawMode = s.rawMode ∧ t.doneCause = s.doneCause ∧ t.rx = s.rx ∧
      step (t.receive (.channelRoom none)) = step (s.receive (.channelRoom none))

/-! ## The state controller -/

/-- R151: with a source that answers `ok` and its first read, `OP_INIT` completes: open, first block (with the block
number as it stands), raw mode, `AWAIT_ACK`. The mark that the open has not happened yet is log entry 2. -/
def Obligations.InitBuildsFirstBlock : Prop :=
  ∀ (s : State) (d : List Byte), s.progress ≠ .opened → s.srcOpens = true → s.srcReady ≠ some 0 →
    s.srcReady ≠ some 1 →
    d = s.srcContent.take (min 128 (s.srcShort.headD 128)) →
    ∃ m : Memory,
      m.readRange 0 132 = [0x01#8, s.blockNumber + 1#8, 0xFF#8 - (s.blockNumber + 1#8)] ++ d ++
        List.replicate (128 - d.length) 0x00#8 ++ [BitVec.ofNat 8 ((d.map BitVec.toNat).sum % 256)] ∧
      (∀ a, 132 ≤ a → m.read a = s.currentBlock.read a) ∧
      exec .opInit s = .next { s with
        state := .awaitAck, currentBlock := m, eofFlag := s.eofFlag || decide (d.length < 128), fileOpen := true,
        rawMode := true, progress := .idle, srcPos := d.length, srcShort := s.srcShort.tail, srcReady := s.srcReady.map (· - 2),
        trace := s.trace ++ [.srcOpenOk, .srcRead d] }

/-- R181, R151: on `SrcOpen:fail` `done_cause` and `state` are written and nothing else; no read, no `Tx`, no `Rx`; and
with nothing open the session is final at once. The mark that the open has not happened yet is log entry 2. -/
def Obligations.OpenFailureEndsSession : Prop :=
  ∀ s : State, s.progress ≠ .opened → s.srcOpens = false → s.srcReady ≠ some 0 →
    exec .opInit s = .next { s with
      state := .done, doneCause := .sourceUnavailable, progress := .idle, srcReady := s.srcReady.map (· - 1),
      trace := s.trace ++ [.srcOpenFail] } ∧
    (s.fileOpen = false → s.rawMode = false →
      ∀ t, exec .opInit s = .next t → t.isFinal = true)

/-- R143, R151: a source that opens and keeps the first read waiting holds the unit in `INIT` with the source open, raw
mode as it was and no block built; when it answers, the outcome is the one without the wait. That the held unit's step
answers the state itself (R143 gives it no step) is the model's choice of log entry 1, and the mark between open and read
that of log entry 2. -/
def Obligations.WaitInInitLosesNothing : Prop :=
  ∀ s : State, s.state = .init → s.progress = .idle → s.srcOpens = true → s.srcReady = some 1 →
    ∃ t, step s = .next t ∧ t.state = .init ∧ t.fileOpen = true ∧ t.rawMode = s.rawMode ∧
      t.currentBlock = s.currentBlock ∧ t.eofFlag = s.eofFlag ∧ t.trace = s.trace ++ [.srcOpenOk] ∧
      step t = .next t ∧ step (t.receive (.sourceReady none)) = step (s.receive (.sourceReady none))

/-- R89, R90, R183, R184, R182: what each row of the control byte does, once the byte is consumed: the transfer of
control, `done_cause` on CAN, and nothing else. That the rows act after the `Rx` is the model's reading of log entry 11. -/
def Obligations.ControlRowsTransferControl : Prop :=
  ∀ (s : State) (b : Byte),
    exec .ack s = .next { s with state := .advance, progress := .idle } ∧
    exec .nak s = .next { s with state := .send, progress := .idle } ∧
    exec .can s = .next { s with state := .done, doneCause := .peerCancelled, progress := .idle } ∧
    exec (.ignored b) s = .next { s with state := .awaitAck, progress := .idle }

/-- R91: all 256 answers to the EOT have the same effect: the session completes. That the row acts once its byte is
consumed, so that the `Rx` is not the row's own, is the model's reading of log entry 11. -/
def Obligations.EotAnswerCompletes : Prop :=
  ∀ (s : State) (b : Byte),
    exec (.eotResponse b) s = .next { s with state := .done, doneCause := .complete, progress := .idle }

/-- R152: `OP_AWAIT_ACK`, state code 1, on a waiting byte: one `Rx`, then by its value; nothing else is written. -/
def Obligations.AwaitAckActsOnByte : Prop :=
  encode .opAwaitAck = some (.stateReg, [1#8]) ∧ ∀ (s : State) (c : Byte) (rest : List Byte), s.rx = c :: rest →
    exec .opAwaitAck s = .next (
      if c = 0x18#8 then
        { s with rx := rest, trace := s.trace ++ [.rx c], progress := .idle, state := .done, doneCause := .peerCancelled }
      else { s with
        rx := rest, trace := s.trace ++ [.rx c], progress := .idle
        state := if c = 0x06#8 then .advance else if c = 0x15#8 then .send else .awaitAck })

/-- R153: `OP_ADVANCE`, state code 2; the counter adds one modulo 256 and only on the branch that builds. -/
def Obligations.AdvanceCountsOrEnds : Prop :=
  encode .opAdvance = some (.stateReg, [2#8]) ∧ ∀ s : State,
    (s.eofFlag = true → exec .opAdvance s = .next { s with state := .sendEot, progress := .idle }) ∧
    (s.eofFlag = false → exec .opAdvance s = .next { s with
      state := .build, progress := .idle, blockNumber := BitVec.ofNat 8 ((s.blockNumber.toNat + 1) % 256) })

/-- R155, R141: with a channel that takes them, `OP_SEND` hands over the bytes of the buffer in ascending offset, all 132
of them (the ones not handed over yet where a stalled frame goes on, log entry 2), and goes to `AWAIT_ACK`; the buffer is
unchanged. -/
def Obligations.SendEmitsWholeBuffer : Prop :=
  ∀ (s : State) (k : Nat), k = s.progress.sentSoFar → (∀ r, s.txReady = some r → 132 - k ≤ r) →
    s.bufferBytes = (List.range 132).map s.bufferByte ∧
    exec .opSend s = .next { s with
      state := .awaitAck, progress := .idle, txReady := s.txReady.map (· - (132 - k)),
      trace := s.trace ++ (s.bufferBytes.drop k).map Event.tx }

/-- R81, R87: with a channel that takes them, the row `BLOCK` sends its 132 bytes in the order of the layout (the rest of
them where a stalled frame goes on, log entry 2). That the row also goes to `AWAIT_ACK`, which R155 says of `OP_SEND`, is
the model's choice of log entry 11, and that a payload which is not 128 bytes stops by name that of log entry 12. -/
def Obligations.BlockRowSendsLayout : Prop :=
  ∀ (s : State) (q c : Byte) (p : List Byte) (k : Byte),
    (p.length = 128 → (∀ r, s.txReady = some r → 132 - s.progress.sentSoFar ≤ r) →
      exec (.block q c p k) s = .next { s with
        state := .awaitAck, progress := .idle, txReady := s.txReady.map (· - (132 - s.progress.sentSoFar)),
        trace := s.trace ++ (([0x01#8, q, c] ++ p ++ [k]).drop s.progress.sentSoFar).map Event.tx }) ∧
    (p.length ≠ 128 → exec (.block q c p k) s = .refused .operandLength)

/-- R156: with a channel that takes the EOT and an answer waiting, `OP_SEND_EOT` is `Tx(0x04)`, one `Rx` of any value,
`COMPLETE`, `DONE`. The mark that the EOT is not out yet is log entry 2. -/
def Obligations.SendEotCompletes : Prop :=
  ∀ (s : State) (c : Byte) (rest : List Byte), s.progress ≠ .eotSent → s.txReady ≠ some 0 → s.rx = c :: rest →
    exec .opSendEot s = .next { s with
      state := .done, doneCause := .complete, progress := .idle, rx := rest, txReady := s.txReady.map (· - 1),
      trace := s.trace ++ [.tx 0x04#8, .rx c] }

/-- R143, R156, R221: with no answer the EOT is sent once, the unit is held in `SEND_EOT`, the source and the mode as they
were, for as long as the peer is silent, and any later byte completes the session without a second EOT. That the held
unit's step answers the state itself is the model's choice of log entry 1, and the half-way step with its mark that of
log entry 2. -/
def Obligations.SendEotHoldsUntilAnswer : Prop :=
  ∀ s : State, s.state = .sendEot → s.progress ≠ .eotSent → s.txReady ≠ some 0 → s.rx = [] → s.rxDepth = none →
    ∃ t, step s = .next t ∧ t.trace = s.trace ++ [.tx 0x04#8] ∧ t.state = .sendEot ∧ t.doneCause = s.doneCause ∧
      t.fileOpen = s.fileOpen ∧ t.rawMode = s.rawMode ∧ step t = .next t ∧
      ∀ c, ∃ u, step (t.receive (.peerSends c)) = .next u ∧ u.state = .done ∧ u.doneCause = .complete ∧
        u.trace = s.trace ++ [.tx 0x04#8, .rx c] ∧ u.rx = []

/-- R157: `OP_DONE` closes the source if it is open and lowers `raw_mode`; `state` and `done_cause` stay. -/
def Obligations.DoneReleases : Prop :=
  ∀ s : State, exec .opDone s = .next { s with
    fileOpen := false, rawMode := false, trace := s.trace ++ if s.fileOpen then [.srcClose] else [] }

/-- R159, R190: a session is final when `state` = `DONE` and nothing is open or raw. `OP_DONE` makes it so; then every
register keeps its value and no event happens, whatever the environment does (the idle answer is the model's, log
entry 1). -/
def Obligations.FinalStateStays : Prop :=
  (∀ s : State, s.isFinal = true ↔ s.state = .done ∧ s.fileOpen = false ∧ s.rawMode = false) ∧
  (∀ s : State, s.state = .done → ∃ t, step s = .next t ∧ t.isFinal = true ∧ t.doneCause = s.doneCause) ∧
  (∀ (s : State) (es : List Input), s.isFinal = true →
    ∃ t, runInputs es s = .next t ∧ t.isFinal = true ∧ t.trace = s.trace ∧ t.outputs = s.outputs)

/-- R158: these are all the transitions there are: each row under its condition, with all seven registers after it (the
status outputs of R31, so a register no row names is unchanged) and the port events it has. Beside the rows stand the
waits of R143: what a held unit's step answers and what a half-done operation leaves is the model's choice of log entries
1 and 2. -/
def Obligations.TransitionsAreTheTable : Prop :=
  ∀ s t : State, s.Inv → step s = .next t →
    match s.state with
    | .init =>
      (s.progress ≠ .opened ∧ s.srcOpens = false ∧ s.srcReady ≠ some 0 ∧
        t.outputs = { s.outputs with state := CtrlState.done.code, doneCause := DoneCause.sourceUnavailable.code } ∧
        t.trace = s.trace ++ [.srcOpenFail]) ∨
      ((s.progress = .opened ∨ s.srcOpens = true) ∧ s.srcReady ≠ some 0 ∧ ∃ d, d.length ≤ 128 ∧
        t.outputs = { s.outputs with
          state := CtrlState.awaitAck.code, fileOpen := true, rawMode := true,
          currentBlock := builtFrame s.blockNumber d, eofFlag := s.eofFlag || decide (d.length < 128) } ∧
        t.trace = s.trace ++ (if s.progress = .opened then [] else [.srcOpenOk]) ++ [.srcRead d]) ∨
      (s.progress ≠ .opened ∧ s.srcOpens = true ∧ s.srcReady = some 1 ∧ t.progress = .opened ∧
        t.outputs = { s.outputs with fileOpen := true } ∧ t.trace = s.trace ++ [.srcOpenOk]) ∨
      (s.srcReady = some 0 ∧ t = s)
    | .awaitAck =>
      (s.rx.head? = some 0x18#8 ∧ t.trace = s.trace ++ [.rx 0x18#8] ∧
        t.outputs = { s.outputs with state := CtrlState.done.code, doneCause := DoneCause.peerCancelled.code }) ∨
      (s.rx.head? = some 0x06#8 ∧ t.trace = s.trace ++ [.rx 0x06#8] ∧
        t.outputs = { s.outputs with state := CtrlState.advance.code }) ∨
      (s.rx.head? = some 0x15#8 ∧ t.trace = s.trace ++ [.rx 0x15#8] ∧
        t.outputs = { s.outputs with state := CtrlState.send.code }) ∨
      (∃ b, s.rx.head? = some b ∧ b ≠ 0x18#8 ∧ b ≠ 0x06#8 ∧ b ≠ 0x15#8 ∧ t.trace = s.trace ++ [.rx b] ∧
        t.outputs = s.outputs) ∨
      (s.rx = [] ∧ t = s)
    | .advance =>
      t.trace = s.trace ∧
      ((s.eofFlag = true ∧ t.outputs = { s.outputs with state := CtrlState.sendEot.code }) ∨
       (s.eofFlag = false ∧
        t.outputs = { s.outputs with state := CtrlState.build.code, blockNumber := s.blockNumber + 1#8 }))
    | .build =>
      (s.srcReady ≠ some 0 ∧ ∃ d, d.length ≤ 128 ∧ t.trace = s.trace ++ [.srcRead d] ∧
        t.outputs = { s.outputs with
          state := CtrlState.send.code, currentBlock := builtFrame s.blockNumber d
          eofFlag := s.eofFlag || decide (d.length < 128) }) ∨
      (s.srcReady = some 0 ∧ t = s)
    | .send =>
      ((∀ r, s.txReady = some r → 132 - s.progress.sentSoFar ≤ r) ∧
        t.outputs = { s.outputs with state := CtrlState.awaitAck.code } ∧
        t.trace = s.trace ++ (s.bufferBytes.drop s.progress.sentSoFar).map Event.tx) ∨
      (∃ r, s.txReady = some r ∧ r < 132 - s.progress.sentSoFar ∧ t.outputs = s.outputs ∧
        t.progress = (if r = 0 then s.progress else .sending (s.progress.sentSoFar + r)) ∧
        t.trace = s.trace ++ ((s.bufferBytes.drop s.progress.sentSoFar).take r).map Event.tx)
    | .sendEot =>
      (∃ b, s.rx.head? = some b ∧ (s.progress = .eotSent ∨ s.txReady ≠ some 0) ∧
        t.outputs = { s.outputs with state := CtrlState.done.code, doneCause := DoneCause.complete.code } ∧
        t.trace = s.trace ++ (if s.progress = .eotSent then [] else [.tx 0x04#8]) ++ [.rx b]) ∨
      (s.progress ≠ .eotSent ∧ s.txReady ≠ some 0 ∧ s.rx = [] ∧ t.progress = .eotSent ∧ t.outputs = s.outputs ∧
        t.trace = s.trace ++ [.tx 0x04#8]) ∨
      (((s.progress = .eotSent ∧ s.rx = []) ∨ (s.progress ≠ .eotSent ∧ s.txReady = some 0)) ∧ t = s)
    | .done =>
      (s.isFinal = false ∧ t.outputs = { s.outputs with fileOpen := false, rawMode := false } ∧
        t.trace = s.trace ++ if s.fileOpen then [.srcClose] else []) ∨
      (s.isFinal = true ∧ t = s)

/-- R143: a unit whose awaited event is missing is held: its step changes nothing (the idle answer of log entry 1). A
unit whose event is there moves. -/
def Obligations.UnitMovesExactlyWhenItCan : Prop :=
  ∀ s : State, s.Inv → (s.canAct = true ↔ ∃ t, step s = .next t ∧ t ≠ s)

/-! ## Frames -/

/-- R20: which operation writes which register, for every row of the table; every other row leaves it. Of the buffer,
byte by byte, a build stores to offsets 0 to 131 and no other row stores at all. The trace only grows. -/
def Obligations.EachRowWritesOnlyItsRegisters : Prop :=
  ∀ (i : Instr) (s t : State), exec i s = .next t →
    (t.blockNumber ≠ s.blockNumber → i = .opAdvance) ∧
    (t.eofFlag ≠ s.eofFlag → (i = .opInit ∨ i = .opBuild ∨ i = .buildBlock) ∧ t.eofFlag = true) ∧
    (∀ a, t.bufferByte a ≠ s.bufferByte a → (i = .opInit ∨ i = .opBuild ∨ i = .buildBlock) ∧ a < 132) ∧
    (t.fileOpen ≠ s.fileOpen → (i = .opInit ∧ t.fileOpen = true) ∨ (i = .opDone ∧ t.fileOpen = false)) ∧
    (t.rawMode ≠ s.rawMode → (i = .opInit ∧ t.rawMode = true) ∨ (i = .opDone ∧ t.rawMode = false)) ∧
    (t.doneCause ≠ s.doneCause →
      (i = .opInit ∧ t.doneCause = .sourceUnavailable) ∨
      ((i = .opAwaitAck ∨ i = .can) ∧ t.doneCause = .peerCancelled) ∨
      ((i = .opSendEot ∨ ∃ b, i = .eotResponse b) ∧ t.doneCause = .complete)) ∧
    ((i = .opDone ∨ i = .eot ∨ i = .buildBlock ∨ i = .awaitByte ∨ (∃ p, i = .checksum8 p) ∨ ∃ bs, i = .emit bs) →
      t.state = s.state) ∧
    (t.returned ≠ s.returned → i = .awaitByte ∨ ∃ p, i = .checksum8 p) ∧
    (t.rx ≠ s.rx → (i = .opAwaitAck ∨ i = .opSendEot ∨ i = .awaitByte) ∧ t.rx = s.rx.tail) ∧
    (t.srcPos ≠ s.srcPos → i = .opInit ∨ i = .opBuild ∨ i = .buildBlock) ∧
    t.srcContent = s.srcContent ∧ t.srcOpens = s.srcOpens ∧ t.rxDepth = s.rxDepth ∧
    s.trace <+: t.trace

/-- R145, R59: which port each state's step uses, and how often: at most 132 `Tx` in `SEND`, at most one in `SEND_EOT`;
at most one `Rx` in `AWAIT_ACK` and one in `SEND_EOT`; the source only in `INIT`, `BUILD` and `DONE`. -/
def Obligations.PortsUsedOnlyWhere : Prop :=
  ∀ s t : State, step s = .next t → ∃ es, t.trace = s.trace ++ es ∧
    (∀ b, Event.tx b ∈ es → s.state = .send ∨ (s.state = .sendEot ∧ b = 0x04#8)) ∧
    (outboundOf es).length ≤ (if s.state = .send then 132 else if s.state = .sendEot then 1 else 0) ∧
    (∀ b, Event.rx b ∈ es → s.state = .awaitAck ∨ s.state = .sendEot) ∧
    (inboundOf es).length ≤ (if s.state = .awaitAck ∨ s.state = .sendEot then 1 else 0) ∧
    s.rx = inboundOf es ++ t.rx ∧
    (Event.srcOpenOk ∈ es ∨ Event.srcOpenFail ∈ es → s.state = .init) ∧
    (∀ d, Event.srcRead d ∈ es → s.state = .init ∨ s.state = .build) ∧
    (Event.srcClose ∈ es → s.state = .done ∧ s.fileOpen = true)

/-- No row refuses a well-formed operation: the only stop is a build whose source is not open (R120, R186). -/
def Obligations.WellFormedRowsRun : Prop :=
  ∀ (i : Instr) (s : State), i.wf = true →
    (∃ t, exec i s = .next t) ∨
    (exec i s = .fault .sourceNotOpen ∧ s.fileOpen = false ∧ (i = .opBuild ∨ i = .buildBlock))

/-! ## Invariants -/

/-- The invariant of R35, the shapes of the outbound stream and of the trace, and the counts of builds, ACKs and bytes read
hold at reset. -/
def Obligations.ResetMeetsInvariant : Prop :=
  State.reset.Inv ∧ State.reset.OutboundShape ∧ State.reset.CounterCountsReads ∧ State.reset.AcksCountBlocks ∧
  State.reset.ReadsAreFull ∧ State.reset.TraceSoFar

/-- R35, R51: every step keeps the canonical buffer, the frame in it, the three flags against the state, the cause
against `DONE`, and the marks of the model; from every state, reached or not. -/
def Obligations.StepKeepsInvariant : Prop :=
  ∀ s t : State, s.Inv → step s = .next t → t.Inv

/-- R8, R35: no act of the environment breaks an invariant. -/
def Obligations.InputKeepsInvariant : Prop :=
  ∀ (s : State) (e : Input), s.Inv →
    (s.receive e).Inv ∧ (s.OutboundShape → (s.receive e).OutboundShape) ∧
    (s.CounterCountsReads → (s.receive e).CounterCountsReads) ∧
    (s.AcksCountBlocks → (s.receive e).AcksCountBlocks) ∧ (s.ReadsAreFull → (s.receive e).ReadsAreFull) ∧
    (s.TraceSoFar → (s.receive e).TraceSoFar)

/-- R94, R87, R88: every step keeps the outbound stream a sequence of whole frames, each of 132 bytes with its
complement and checksum right, then at most one EOT, which is last. -/
def Obligations.StepKeepsOutboundShape : Prop :=
  ∀ s t : State, s.Inv → s.OutboundShape → step s = .next t → t.OutboundShape

/-- R22, R161: every step keeps the block counter equal to the number of blocks built, modulo 256, counted from 0. -/
def Obligations.StepKeepsCounter : Prop :=
  ∀ s t : State, s.Inv → s.CounterCountsReads → step s = .next t → t.CounterCountsReads

/-- R161: every step keeps the block counter equal to the number of ACKs read, modulo 256, and so the sequence byte of the
frame that stands to be sent is that number plus one. -/
def Obligations.StepKeepsAckCount : Prop :=
  ∀ s t : State, s.Inv → s.AcksCountBlocks → step s = .next t → t.AcksCountBlocks ∧
    (t.state = .send → t.bufferByte 1 = BitVec.ofNat 8 (acksIn t.trace + 1))

/-- R186, R165: whatever the source holds and however short it answers, whatever the peer sends and whenever, of whatever
depth the inbound channel, and however the channel and the source stall, a session from reset never stops with a fault or a
refusal, and R35, R94, R22 and R161 hold at every point of it. -/
def Obligations.SessionsNeverStop : Prop :=
  ∀ (content : List Byte) (opens : Bool) (short : List Nat) (depth : Option Nat) (inbound : List Byte) (es : List Input),
    ∃ t, runInputs es { State.reset.withSession content opens inbound with srcShort := short, rxDepth := depth } = .next t ∧
      t.Inv ∧ t.OutboundShape ∧ t.CounterCountsReads ∧ t.AcksCountBlocks ∧ t.ReadsAreFull

/-- R165: every session from reset that has become final has a trace of one of the three shapes: the failed open alone; or
the open and the first read, rounds of an ignored byte, a rejection with its frame, or an ACK with a read and a frame, and
then either the last ACK, the EOT, its answer and the close, or a CAN and the close. -/
def Obligations.CompleteTracesHaveShape : Prop :=
  ∀ (content : List Byte) (opens : Bool) (short : List Nat) (depth : Option Nat) (inbound : List Byte) (es : List Input)
    (t : State),
    runInputs es { State.reset.withSession content opens inbound with srcShort := short, rxDepth := depth } = .next t →
    t.isFinal = true → IsCompleteTrace t.trace t.doneCause

/-- R57, R52: while no read has answered fewer than 128 bytes, the read position is 128 times the number of blocks built;
it starts at 0. -/
def Obligations.StepKeepsReadPosition : Prop :=
  ∀ s t : State, s.Inv → s.ReadsAreFull → step s = .next t → t.ReadsAreFull

/-! ## Sessions -/

/-- R162, R183, R220: `n` rejections in a row send the same 132 bytes `n` times and change no register; there is no
bound on `n`. -/
def Obligations.RejectionsResendSameFrame : Prop :=
  ∀ (s : State) (n : Nat) (rest : List Byte), s.state = .awaitAck → s.progress = .idle → s.txReady = none →
    s.rx = List.replicate n 0x15#8 ++ rest →
    Sys2Proof.core.run (2 * n) s = .next { s with
      rx := rest,
      trace := s.trace ++ (List.replicate n (Event.rx 0x15#8 :: s.bufferBytes.map Event.tx)).flatten }

/-- R164, R182, R225: a CAN read in `AWAIT_ACK` ends the session in two steps: nothing is sent, the source is closed, the
mode restored, and what the peer sends after it is not read. -/
def Obligations.CancelEndsSession : Prop :=
  ∀ (s : State) (rest : List Byte), s.state = .awaitAck → s.fileOpen = true → s.rx = 0x18#8 :: rest →
    ∃ t, Sys2Proof.core.run 2 s = .next t ∧ t.isFinal = true ∧ t.doneCause = .peerCancelled ∧
      t.trace = s.trace ++ [.rx 0x18#8, .srcClose] ∧ outboundOf t.trace = outboundOf s.trace ∧ t.rx = rest ∧
      t.blockNumber = s.blockNumber ∧ t.eofFlag = s.eofFlag ∧ t.currentBlock = s.currentBlock

/-- R218, R219: an ACK is obeyed whether or not the current frame was ever sent. With more data the next frame goes out
and the current one never does; at the end of the data the EOT goes out. -/
def Obligations.AckAdvancesUnsentBlock : Prop :=
  ∀ (s : State) (rest : List Byte), s.state = .awaitAck → s.fileOpen = true → s.txReady = none → s.srcReady = none →
    s.rx = 0x06#8 :: rest →
    (s.eofFlag = false → ∃ t f, Sys2Proof.core.run 4 s = .next t ∧ t.state = .awaitAck ∧
      t.blockNumber = s.blockNumber + 1#8 ∧ f.length = 132 ∧ f[1]? = some (s.blockNumber + 2#8) ∧
      outboundOf t.trace = outboundOf s.trace ++ f ∧ t.rx = rest) ∧
    (s.eofFlag = true → ∃ t, Sys2Proof.core.run 3 s = .next t ∧
      outboundOf t.trace = outboundOf s.trace ++ [0x04#8])

/-- R132, R161, R165: with a source that keeps its contract and a peer that asks with NAK, acknowledges every frame and
answers the EOT, a session of any content sends `N = floor(L / 128) + 1` frames, block `k` with sequence `(k + 1) mod
256` and the content's bytes `128 k` and up, padded, then the EOT, and completes: in `4 N + 3` steps, all of the inbound
bytes read. -/
def Obligations.WholeSessionSendsSource : Prop :=
  ∀ (content : List Byte) (answer : Byte),
    ∃ t, Sys2Proof.core.run (4 * (content.length / 128 + 1) + 3)
        (State.reset.withSession content true
          (0x15#8 :: (List.replicate (content.length / 128 + 1) 0x06#8 ++ [answer]))) = .next t ∧
      t.isFinal = true ∧ t.doneCause = .complete ∧ t.eofFlag = true ∧ t.rx = [] ∧
      t.blockNumber = BitVec.ofNat 8 (content.length / 128) ∧ t.srcPos = content.length ∧
      outboundOf t.trace =
        ((List.range (content.length / 128 + 1)).map (frameOf content)).flatten ++ [0x04#8]

/-! ## Steps of a session, from any sound state -/

/-- R186, R143: from every sound state the unit's step answers a next state: no condition, no waiting and no data of the
source or the peer stops it. The answer of a held or a final unit is the state itself, the model's choice of log entry
1. -/
def Obligations.SoundStatesStep : Prop :=
  ∀ s : State, s.Inv → ∃ t, step s = .next t

/-- R165: every step from a sound state keeps the trace so far the beginning of one of the shapes of R165, as far as its
state says: the open, the first read, whole rounds, and the part of a round under way (a frame or an ending half done is
the mark of log entry 2). A step that makes the session final makes it one of the complete shapes. -/
def Obligations.StepKeepsTraceShape : Prop :=
  ∀ s t : State, s.Inv → s.TraceSoFar → step s = .next t →
    t.TraceSoFar ∧ (t.isFinal = true → IsCompleteTrace t.trace t.doneCause)

/-- R152 to R157, R165: a whole round of a session from any state in `AWAIT_ACK` with an ACK waiting, the source and the
channel answering at once. With `eof_flag` 0: the counter adds one, the next bytes are read, the frame of R128 is built
over the old one and sent, and the unit is in `AWAIT_ACK` again. With `eof_flag` 1 and an answer waiting: the EOT, the
answer, the close, and the session is final and complete. Nothing else is written. -/
def Obligations.AckRoundsFollowTheRules : Prop :=
  ∀ (s : State) (rest : List Byte), s.state = .awaitAck → s.fileOpen = true → s.txReady = none → s.srcReady = none →
    s.rx = 0x06#8 :: rest →
    (∀ d, s.eofFlag = false → d = (s.srcContent.drop s.srcPos).take (min 128 (s.srcShort.headD 128)) →
      ∃ m : Memory, m.readRange 0 132 = builtFrame (s.blockNumber + 1#8) d ∧
        (∀ a, 132 ≤ a → m.read a = s.currentBlock.read a) ∧
        Sys2Proof.core.run 4 s = .next { s with
          progress := .idle, blockNumber := s.blockNumber + 1#8, eofFlag := decide (d.length < 128), currentBlock := m,
          srcPos := s.srcPos + d.length, srcShort := s.srcShort.tail, rx := rest,
          trace := s.trace ++ [.rx 0x06#8, .srcRead d] ++ (builtFrame (s.blockNumber + 1#8) d).map Event.tx }) ∧
    (∀ b rest', s.eofFlag = true → rest = b :: rest' →
      Sys2Proof.core.run 4 s = .next { s with
        state := .done, doneCause := .complete, progress := .idle, fileOpen := false, rawMode := false, rx := rest',
        trace := s.trace ++ [.rx 0x06#8, .tx 0x04#8, .rx b, .srcClose] })
end

