-- ==== Sys2Proof/Laws/Memory.lean ====
section
/-! SUPPORT. The frame buffer: a read after a write, and every write keeps the canonical form. -/

namespace Sys2Proof.Machine

@[simp] theorem Memory.read_nil (a : Nat) : Memory.read [] a = Memory.unwritten := rfl

theorem Memory.read_cons (k : Nat) (b : Byte) (m : Memory) (a : Nat) :
    Memory.read ((k, b) :: m) a = if k = a then b else Memory.read m a := rfl

theorem Memory.read_erase (m : Memory) (a x : Nat) :
    Memory.read (Memory.erase m a) x = if a = x then Memory.unwritten else Memory.read m x := by
  induction m with
  | nil => simp [Memory.erase]
  | cons p m ih =>
    obtain ⟨k, b⟩ := p
    simp only [Memory.erase]
    split <;> simp only [Memory.read_cons, ih] <;> split_ifs <;> simp_all

theorem Memory.read_insert (m : Memory) (a x : Nat) (v : Byte)
    (hm : ∀ p ∈ m, p.1 ≠ a) :
    Memory.read (Memory.insert m a v) x = if a = x then v else Memory.read m x := by
  induction m with
  | nil => simp [Memory.insert, Memory.read_cons]
  | cons p m ih =>
    obtain ⟨k, b⟩ := p
    have hk : k ≠ a := hm (k, b) (by simp)
    have ih' := ih fun q hq => hm q (by simp [hq])
    simp only [Memory.insert]
    split
    · simp only [Memory.read_cons]
    · simp only [Memory.read_cons, ih']
      split_ifs <;> simp_all

theorem Memory.not_mem_erase (m : Memory) (a : Nat) : ∀ p ∈ Memory.erase m a, p.1 ≠ a := by
  induction m with
  | nil => simp [Memory.erase]
  | cons p m ih =>
    obtain ⟨k, b⟩ := p
    simp only [Memory.erase]
    split
    · exact ih
    · simpa using ⟨‹_›, by simpa using ih⟩

/-- A read after a write: the value at the place written, and every other place as before. -/
@[simp] theorem Memory.read_write (m : Memory) (a x : Nat) (v : Byte) :
    Memory.read (Memory.write m a v) x = if a = x then v else Memory.read m x := by
  unfold Memory.write
  split
  · simp_all [Memory.read_erase]
  · rw [Memory.read_insert _ _ _ _ (Memory.not_mem_erase m a), Memory.read_erase]
    split_ifs <;> rfl

@[simp] theorem Memory.writeRange_nil (m : Memory) (a : Nat) : m.writeRange a [] = m := rfl

theorem Memory.writeRange_cons (m : Memory) (a : Nat) (b : Byte) (bs : List Byte) :
    m.writeRange a (b :: bs) = (m.write a b).writeRange (a + 1) bs := rfl

/-- A read after a range was written. -/
theorem Memory.read_writeRange (m : Memory) (a : Nat) (bs : List Byte) (x : Nat) :
    (m.writeRange a bs).read x = if a ≤ x ∧ x < a + bs.length then bs.getD (x - a) 0 else m.read x := by
  induction bs generalizing m a with
  | nil => simp
  | cons b bs ih =>
    rw [Memory.writeRange_cons, ih, Memory.read_write]
    by_cases h1 : x = a
    · subst h1; simp
    · by_cases h2 : a + 1 ≤ x ∧ x < a + 1 + bs.length
      · have h3 : a ≤ x ∧ x < a + (b :: bs).length := by simp; omega
        have h4 : x - a = (x - (a + 1)) + 1 := by omega
        rw [if_pos h2, if_pos h3, h4, List.getD_cons_succ]
      · have h3 : ¬ (a ≤ x ∧ x < a + (b :: bs).length) := by simp at *; omega
        rw [if_neg h2, if_neg h3, if_neg (by omega)]

@[simp] theorem Memory.readRange_zero (m : Memory) (a : Nat) : m.readRange a 0 = [] := rfl

theorem Memory.readRange_succ (m : Memory) (a n : Nat) :
    m.readRange a (n + 1) = m.read a :: m.readRange (a + 1) n := rfl

@[simp] theorem Memory.length_readRange (m : Memory) (a n : Nat) : (m.readRange a n).length = n := by
  induction n generalizing a with
  | zero => rfl
  | succ n ih => simp [Memory.readRange_succ, ih]

@[simp] theorem Memory.getElem_readRange (m : Memory) (a n i : Nat) (h : i < (m.readRange a n).length) :
    (m.readRange a n)[i] = m.read (a + i) := by
  induction n generalizing a i with
  | zero => simp at h
  | succ n ih =>
    cases i with
    | zero => rfl
    | succ i =>
      simp only [Memory.readRange_succ, List.getElem_cons_succ]
      rw [ih]; congr 1; omega

/-- A range is its bytes: two buffers that read alike on it give the same range. -/
theorem Memory.readRange_eq_of_read (m : Memory) (a : Nat) (bs : List Byte)
    (h : ∀ i (hi : i < bs.length), m.read (a + i) = bs[i]) : m.readRange a bs.length = bs :=
  List.ext_getElem (by simp) fun i h1 h2 => by simp [h i h2]

theorem Memory.readRange_congr (m m' : Memory) (a n : Nat) (h : ∀ x, a ≤ x → x < a + n → m.read x = m'.read x) :
    m.readRange a n = m'.readRange a n :=
  List.ext_getElem (by simp) fun i h1 _ => by
    simp only [Memory.length_readRange] at h1
    simp [h (a + i) (by omega) (by omega)]

theorem Memory.readRange_append (m : Memory) (a n k : Nat) :
    m.readRange a (n + k) = m.readRange a n ++ m.readRange (a + n) k := by
  induction n generalizing a with
  | zero => simp
  | succ n ih =>
    rw [show n + 1 + k = (n + k) + 1 by omega, Memory.readRange_succ, ih, Memory.readRange_succ]
    simp [Nat.add_assoc, Nat.add_comm 1 n]

/-- The range just written reads back as the bytes written. -/
theorem Memory.readRange_writeRange_same (m : Memory) (a : Nat) (bs : List Byte) :
    (m.writeRange a bs).readRange a bs.length = bs :=
  Memory.readRange_eq_of_read _ _ _ fun i hi => by
    rw [Memory.read_writeRange, if_pos (by omega)]
    simp [List.getD_eq_getElem?_getD, hi]

/-! ## The canonical form -/

theorem Memory.wfFrom_mono {m : Memory} {lo lo' : Nat} (h : lo' ≤ lo) (w : Memory.wfFrom lo m = true) :
    Memory.wfFrom lo' m = true := by
  cases m with
  | nil => rfl
  | cons p m =>
    obtain ⟨k, b⟩ := p
    simp only [Memory.wfFrom, Bool.and_eq_true, decide_eq_true_eq] at w ⊢
    exact ⟨⟨⟨by omega, w.1.1.2⟩, w.1.2⟩, w.2⟩

theorem Memory.wfFrom_erase {m : Memory} {lo : Nat} (a : Nat) (w : Memory.wfFrom lo m = true) :
    Memory.wfFrom lo (Memory.erase m a) = true := by
  induction m generalizing lo with
  | nil => rfl
  | cons p m ih =>
    obtain ⟨k, b⟩ := p
    simp only [Memory.wfFrom, Bool.and_eq_true, decide_eq_true_eq] at w
    simp only [Memory.erase]
    split
    · exact Memory.wfFrom_mono (by omega) (ih w.2)
    · simp only [Memory.wfFrom, Bool.and_eq_true, decide_eq_true_eq]
      exact ⟨w.1, ih w.2⟩

theorem Memory.wfFrom_insert {m : Memory} {lo a : Nat} {v : Byte} (hl : lo ≤ a) (ha : a < 132)
    (hv : v ≠ Memory.unwritten) (hm : ∀ p ∈ m, p.1 ≠ a) (w : Memory.wfFrom lo m = true) :
    Memory.wfFrom lo (Memory.insert m a v) = true := by
  induction m generalizing lo with
  | nil => simp_all [Memory.insert, Memory.wfFrom]
  | cons p m ih =>
    obtain ⟨k, b⟩ := p
    simp only [Memory.wfFrom, Bool.and_eq_true, decide_eq_true_eq] at w
    have hk : k ≠ a := hm (k, b) (by simp)
    simp only [Memory.insert]
    split
    · simp only [Memory.wfFrom, Bool.and_eq_true, decide_eq_true_eq]
      exact ⟨⟨⟨hl, ha⟩, by simpa using hv⟩, ⟨⟨by omega, w.1.1.2⟩, w.1.2⟩, w.2⟩
    · simp only [Memory.wfFrom, Bool.and_eq_true, decide_eq_true_eq]
      exact ⟨w.1, ih (by omega) (fun q hq => hm q (by simp [hq])) w.2⟩

/-- Every write to an offset that exists keeps the canonical form. -/
theorem Memory.wf_write {m : Memory} {a : Nat} (v : Byte) (ha : a < 132) (w : m.wf = true) :
    (m.write a v).wf = true := by
  unfold Memory.write
  split
  · exact Memory.wfFrom_erase a w
  · exact Memory.wfFrom_insert (by omega) ha ‹_› (Memory.not_mem_erase m a) (Memory.wfFrom_erase a w)

theorem Memory.wf_writeRange {m : Memory} {a : Nat} (bs : List Byte) (ha : a + bs.length ≤ 132)
    (w : m.wf = true) : (m.writeRange a bs).wf = true := by
  induction bs generalizing m a with
  | nil => exact w
  | cons b bs ih =>
    rw [Memory.writeRange_cons]
    simp only [List.length_cons] at ha
    exact ih (by omega) (Memory.wf_write b (by omega) w)

@[simp] theorem Memory.wf_nil : Memory.wf [] = true := rfl

/-- Two entries with the same reads: from a lower bound on, the canonical form has one list for each content. -/
theorem Memory.read_below {m : Memory} {lo x : Nat} (w : Memory.wfFrom lo m = true) (h : x < lo) :
    m.read x = Memory.unwritten := by
  induction m generalizing lo with
  | nil => rfl
  | cons p m ih =>
    obtain ⟨k, b⟩ := p
    simp only [Memory.wfFrom, Bool.and_eq_true, decide_eq_true_eq] at w
    rw [Memory.read_cons, if_neg (by omega)]
    exact ih w.2 (by omega)

/-- Equal memories are equal data: canonical buffers that read alike are the same list. -/
theorem Memory.eq_of_read {m m' : Memory} {lo lo' : Nat} (w : Memory.wfFrom lo m = true)
    (w' : Memory.wfFrom lo' m' = true) (h : ∀ x, m.read x = m'.read x) : m = m' := by
  induction m generalizing m' lo lo' with
  | nil =>
    cases m' with
    | nil => rfl
    | cons q m' =>
      obtain ⟨k, b⟩ := q
      simp only [Memory.wfFrom, Bool.and_eq_true, bne_iff_ne] at w'
      exact absurd (by simpa [Memory.read_cons] using (h k).symm) w'.1.2
  | cons p m ih =>
    obtain ⟨k, b⟩ := p
    cases m' with
    | nil =>
      simp only [Memory.wfFrom, Bool.and_eq_true, bne_iff_ne] at w
      exact absurd (by simpa [Memory.read_cons] using h k) w.1.2
    | cons q m' =>
      obtain ⟨k', b'⟩ := q
      simp only [Memory.wfFrom, Bool.and_eq_true, decide_eq_true_eq, bne_iff_ne] at w w'
      have hk : k = k' := by
        rcases Nat.lt_trichotomy k k' with hlt | heq | hgt
        · have h1 := h k
          rw [Memory.read_cons, if_pos rfl, Memory.read_cons, if_neg (by omega),
            Memory.read_below w'.2 (by omega)] at h1
          exact absurd h1 w.1.2
        · exact heq
        · have h1 := h k'
          rw [Memory.read_cons, if_neg (by omega), Memory.read_below w.2 (by omega), Memory.read_cons,
            if_pos rfl] at h1
          exact absurd h1.symm w'.1.2
      subst hk
      have hb : b = b' := by simpa [Memory.read_cons] using h k
      subst hb
      congr 1
      refine ih w.2 w'.2 fun x => ?_
      by_cases hx : k = x
      · subst hx; rw [Memory.read_below w.2 (by omega), Memory.read_below w'.2 (by omega)]
      · simpa [Memory.read_cons, hx] using h x

end Sys2Proof.Machine
end

