-- ==== Sys2Proof/Laws/Operands.lean ====
section
/-! SUPPORT. The pure functions of a frame's operands: sums of parts, padding, lengths. -/

namespace Sys2Proof.Machine

@[simp] theorem byteSum_nil : byteSum [] = 0 := rfl
@[simp] theorem byteSum_cons (b : Byte) (bs : List Byte) : byteSum (b :: bs) = b.toNat + byteSum bs := rfl

@[simp] theorem byteSum_append (xs ys : List Byte) : byteSum (xs ++ ys) = byteSum xs + byteSum ys := by
  induction xs with
  | nil => simp
  | cons x xs ih => simp [ih, Nat.add_assoc]

@[simp] theorem byteSum_replicate_zero (n : Nat) : byteSum (List.replicate n 0#8) = 0 := by
  induction n with
  | zero => rfl
  | succ n ih => simp [List.replicate_succ, ih]

theorem byteSum_eq_sum (p : List Byte) : byteSum p = (p.map BitVec.toNat).sum := by
  induction p with
  | nil => rfl
  | cons b bs ih => simp [ih]

theorem toNat_checksumOf (p : List Byte) : (checksumOf p).toNat = byteSum p % 256 := by
  simp [checksumOf]

@[simp] theorem length_padded {d : List Byte} (h : d.length ≤ 128) : (padded d).length = 128 := by
  simp [padded]; omega

/-- R115 (c): the pad bytes do not change the checksum. -/
theorem checksumOf_padded (d : List Byte) : checksumOf (padded d) = checksumOf d := by
  simp [checksumOf, padded, -List.reduceReplicate]

@[simp] theorem length_frameBytes (q c : Byte) (p : List Byte) (k : Byte) :
    (frameBytes q c p k).length = p.length + 4 := by
  simp [frameBytes]

end Sys2Proof.Machine
end

