-- ==== Sys2Proof/Laws/State.lean ====
section
/-! SUPPORT. One lemma per field per named update of State, so that no proof unfolds a record update. -/

namespace Sys2Proof.Machine


/-! `setBlockNumber` -/

@[simp] theorem State.setBlockNumber_state (v : Byte) (s : State) : (s.setBlockNumber v).state = s.state := rfl
@[simp] theorem State.setBlockNumber_blockNumber (v : Byte) (s : State) : (s.setBlockNumber v).blockNumber = v := rfl
@[simp] theorem State.setBlockNumber_eofFlag (v : Byte) (s : State) : (s.setBlockNumber v).eofFlag = s.eofFlag := rfl
@[simp] theorem State.setBlockNumber_currentBlock (v : Byte) (s : State) : (s.setBlockNumber v).currentBlock = s.currentBlock := rfl
@[simp] theorem State.setBlockNumber_fileOpen (v : Byte) (s : State) : (s.setBlockNumber v).fileOpen = s.fileOpen := rfl
@[simp] theorem State.setBlockNumber_rawMode (v : Byte) (s : State) : (s.setBlockNumber v).rawMode = s.rawMode := rfl
@[simp] theorem State.setBlockNumber_doneCause (v : Byte) (s : State) : (s.setBlockNumber v).doneCause = s.doneCause := rfl
@[simp] theorem State.setBlockNumber_progress (v : Byte) (s : State) : (s.setBlockNumber v).progress = s.progress := rfl
@[simp] theorem State.setBlockNumber_returned (v : Byte) (s : State) : (s.setBlockNumber v).returned = s.returned := rfl
@[simp] theorem State.setBlockNumber_srcContent (v : Byte) (s : State) : (s.setBlockNumber v).srcContent = s.srcContent := rfl
@[simp] theorem State.setBlockNumber_srcPos (v : Byte) (s : State) : (s.setBlockNumber v).srcPos = s.srcPos := rfl
@[simp] theorem State.setBlockNumber_srcOpens (v : Byte) (s : State) : (s.setBlockNumber v).srcOpens = s.srcOpens := rfl
@[simp] theorem State.setBlockNumber_srcShort (v : Byte) (s : State) : (s.setBlockNumber v).srcShort = s.srcShort := rfl
@[simp] theorem State.setBlockNumber_srcReady (v : Byte) (s : State) : (s.setBlockNumber v).srcReady = s.srcReady := rfl
@[simp] theorem State.setBlockNumber_rx (v : Byte) (s : State) : (s.setBlockNumber v).rx = s.rx := rfl
@[simp] theorem State.setBlockNumber_rxDepth (v : Byte) (s : State) : (s.setBlockNumber v).rxDepth = s.rxDepth := rfl
@[simp] theorem State.setBlockNumber_txReady (v : Byte) (s : State) : (s.setBlockNumber v).txReady = s.txReady := rfl
@[simp] theorem State.setBlockNumber_trace (v : Byte) (s : State) : (s.setBlockNumber v).trace = s.trace := rfl

/-! `setEofFlag` -/

@[simp] theorem State.setEofFlag_state (v : Bool) (s : State) : (s.setEofFlag v).state = s.state := rfl
@[simp] theorem State.setEofFlag_blockNumber (v : Bool) (s : State) : (s.setEofFlag v).blockNumber = s.blockNumber := rfl
@[simp] theorem State.setEofFlag_eofFlag (v : Bool) (s : State) : (s.setEofFlag v).eofFlag = v := rfl
@[simp] theorem State.setEofFlag_currentBlock (v : Bool) (s : State) : (s.setEofFlag v).currentBlock = s.currentBlock := rfl
@[simp] theorem State.setEofFlag_fileOpen (v : Bool) (s : State) : (s.setEofFlag v).fileOpen = s.fileOpen := rfl
@[simp] theorem State.setEofFlag_rawMode (v : Bool) (s : State) : (s.setEofFlag v).rawMode = s.rawMode := rfl
@[simp] theorem State.setEofFlag_doneCause (v : Bool) (s : State) : (s.setEofFlag v).doneCause = s.doneCause := rfl
@[simp] theorem State.setEofFlag_progress (v : Bool) (s : State) : (s.setEofFlag v).progress = s.progress := rfl
@[simp] theorem State.setEofFlag_returned (v : Bool) (s : State) : (s.setEofFlag v).returned = s.returned := rfl
@[simp] theorem State.setEofFlag_srcContent (v : Bool) (s : State) : (s.setEofFlag v).srcContent = s.srcContent := rfl
@[simp] theorem State.setEofFlag_srcPos (v : Bool) (s : State) : (s.setEofFlag v).srcPos = s.srcPos := rfl
@[simp] theorem State.setEofFlag_srcOpens (v : Bool) (s : State) : (s.setEofFlag v).srcOpens = s.srcOpens := rfl
@[simp] theorem State.setEofFlag_srcShort (v : Bool) (s : State) : (s.setEofFlag v).srcShort = s.srcShort := rfl
@[simp] theorem State.setEofFlag_srcReady (v : Bool) (s : State) : (s.setEofFlag v).srcReady = s.srcReady := rfl
@[simp] theorem State.setEofFlag_rx (v : Bool) (s : State) : (s.setEofFlag v).rx = s.rx := rfl
@[simp] theorem State.setEofFlag_rxDepth (v : Bool) (s : State) : (s.setEofFlag v).rxDepth = s.rxDepth := rfl
@[simp] theorem State.setEofFlag_txReady (v : Bool) (s : State) : (s.setEofFlag v).txReady = s.txReady := rfl
@[simp] theorem State.setEofFlag_trace (v : Bool) (s : State) : (s.setEofFlag v).trace = s.trace := rfl

/-! `setCurrentBlock` -/

@[simp] theorem State.setCurrentBlock_state (v : Memory) (s : State) : (s.setCurrentBlock v).state = s.state := rfl
@[simp] theorem State.setCurrentBlock_blockNumber (v : Memory) (s : State) : (s.setCurrentBlock v).blockNumber = s.blockNumber := rfl
@[simp] theorem State.setCurrentBlock_eofFlag (v : Memory) (s : State) : (s.setCurrentBlock v).eofFlag = s.eofFlag := rfl
@[simp] theorem State.setCurrentBlock_currentBlock (v : Memory) (s : State) : (s.setCurrentBlock v).currentBlock = v := rfl
@[simp] theorem State.setCurrentBlock_fileOpen (v : Memory) (s : State) : (s.setCurrentBlock v).fileOpen = s.fileOpen := rfl
@[simp] theorem State.setCurrentBlock_rawMode (v : Memory) (s : State) : (s.setCurrentBlock v).rawMode = s.rawMode := rfl
@[simp] theorem State.setCurrentBlock_doneCause (v : Memory) (s : State) : (s.setCurrentBlock v).doneCause = s.doneCause := rfl
@[simp] theorem State.setCurrentBlock_progress (v : Memory) (s : State) : (s.setCurrentBlock v).progress = s.progress := rfl
@[simp] theorem State.setCurrentBlock_returned (v : Memory) (s : State) : (s.setCurrentBlock v).returned = s.returned := rfl
@[simp] theorem State.setCurrentBlock_srcContent (v : Memory) (s : State) : (s.setCurrentBlock v).srcContent = s.srcContent := rfl
@[simp] theorem State.setCurrentBlock_srcPos (v : Memory) (s : State) : (s.setCurrentBlock v).srcPos = s.srcPos := rfl
@[simp] theorem State.setCurrentBlock_srcOpens (v : Memory) (s : State) : (s.setCurrentBlock v).srcOpens = s.srcOpens := rfl
@[simp] theorem State.setCurrentBlock_srcShort (v : Memory) (s : State) : (s.setCurrentBlock v).srcShort = s.srcShort := rfl
@[simp] theorem State.setCurrentBlock_srcReady (v : Memory) (s : State) : (s.setCurrentBlock v).srcReady = s.srcReady := rfl
@[simp] theorem State.setCurrentBlock_rx (v : Memory) (s : State) : (s.setCurrentBlock v).rx = s.rx := rfl
@[simp] theorem State.setCurrentBlock_rxDepth (v : Memory) (s : State) : (s.setCurrentBlock v).rxDepth = s.rxDepth := rfl
@[simp] theorem State.setCurrentBlock_txReady (v : Memory) (s : State) : (s.setCurrentBlock v).txReady = s.txReady := rfl
@[simp] theorem State.setCurrentBlock_trace (v : Memory) (s : State) : (s.setCurrentBlock v).trace = s.trace := rfl

/-! `setFileOpen` -/

@[simp] theorem State.setFileOpen_state (v : Bool) (s : State) : (s.setFileOpen v).state = s.state := rfl
@[simp] theorem State.setFileOpen_blockNumber (v : Bool) (s : State) : (s.setFileOpen v).blockNumber = s.blockNumber := rfl
@[simp] theorem State.setFileOpen_eofFlag (v : Bool) (s : State) : (s.setFileOpen v).eofFlag = s.eofFlag := rfl
@[simp] theorem State.setFileOpen_currentBlock (v : Bool) (s : State) : (s.setFileOpen v).currentBlock = s.currentBlock := rfl
@[simp] theorem State.setFileOpen_fileOpen (v : Bool) (s : State) : (s.setFileOpen v).fileOpen = v := rfl
@[simp] theorem State.setFileOpen_rawMode (v : Bool) (s : State) : (s.setFileOpen v).rawMode = s.rawMode := rfl
@[simp] theorem State.setFileOpen_doneCause (v : Bool) (s : State) : (s.setFileOpen v).doneCause = s.doneCause := rfl
@[simp] theorem State.setFileOpen_progress (v : Bool) (s : State) : (s.setFileOpen v).progress = s.progress := rfl
@[simp] theorem State.setFileOpen_returned (v : Bool) (s : State) : (s.setFileOpen v).returned = s.returned := rfl
@[simp] theorem State.setFileOpen_srcContent (v : Bool) (s : State) : (s.setFileOpen v).srcContent = s.srcContent := rfl
@[simp] theorem State.setFileOpen_srcPos (v : Bool) (s : State) : (s.setFileOpen v).srcPos = s.srcPos := rfl
@[simp] theorem State.setFileOpen_srcOpens (v : Bool) (s : State) : (s.setFileOpen v).srcOpens = s.srcOpens := rfl
@[simp] theorem State.setFileOpen_srcShort (v : Bool) (s : State) : (s.setFileOpen v).srcShort = s.srcShort := rfl
@[simp] theorem State.setFileOpen_srcReady (v : Bool) (s : State) : (s.setFileOpen v).srcReady = s.srcReady := rfl
@[simp] theorem State.setFileOpen_rx (v : Bool) (s : State) : (s.setFileOpen v).rx = s.rx := rfl
@[simp] theorem State.setFileOpen_rxDepth (v : Bool) (s : State) : (s.setFileOpen v).rxDepth = s.rxDepth := rfl
@[simp] theorem State.setFileOpen_txReady (v : Bool) (s : State) : (s.setFileOpen v).txReady = s.txReady := rfl
@[simp] theorem State.setFileOpen_trace (v : Bool) (s : State) : (s.setFileOpen v).trace = s.trace := rfl

/-! `setRawMode` -/

@[simp] theorem State.setRawMode_state (v : Bool) (s : State) : (s.setRawMode v).state = s.state := rfl
@[simp] theorem State.setRawMode_blockNumber (v : Bool) (s : State) : (s.setRawMode v).blockNumber = s.blockNumber := rfl
@[simp] theorem State.setRawMode_eofFlag (v : Bool) (s : State) : (s.setRawMode v).eofFlag = s.eofFlag := rfl
@[simp] theorem State.setRawMode_currentBlock (v : Bool) (s : State) : (s.setRawMode v).currentBlock = s.currentBlock := rfl
@[simp] theorem State.setRawMode_fileOpen (v : Bool) (s : State) : (s.setRawMode v).fileOpen = s.fileOpen := rfl
@[simp] theorem State.setRawMode_rawMode (v : Bool) (s : State) : (s.setRawMode v).rawMode = v := rfl
@[simp] theorem State.setRawMode_doneCause (v : Bool) (s : State) : (s.setRawMode v).doneCause = s.doneCause := rfl
@[simp] theorem State.setRawMode_progress (v : Bool) (s : State) : (s.setRawMode v).progress = s.progress := rfl
@[simp] theorem State.setRawMode_returned (v : Bool) (s : State) : (s.setRawMode v).returned = s.returned := rfl
@[simp] theorem State.setRawMode_srcContent (v : Bool) (s : State) : (s.setRawMode v).srcContent = s.srcContent := rfl
@[simp] theorem State.setRawMode_srcPos (v : Bool) (s : State) : (s.setRawMode v).srcPos = s.srcPos := rfl
@[simp] theorem State.setRawMode_srcOpens (v : Bool) (s : State) : (s.setRawMode v).srcOpens = s.srcOpens := rfl
@[simp] theorem State.setRawMode_srcShort (v : Bool) (s : State) : (s.setRawMode v).srcShort = s.srcShort := rfl
@[simp] theorem State.setRawMode_srcReady (v : Bool) (s : State) : (s.setRawMode v).srcReady = s.srcReady := rfl
@[simp] theorem State.setRawMode_rx (v : Bool) (s : State) : (s.setRawMode v).rx = s.rx := rfl
@[simp] theorem State.setRawMode_rxDepth (v : Bool) (s : State) : (s.setRawMode v).rxDepth = s.rxDepth := rfl
@[simp] theorem State.setRawMode_txReady (v : Bool) (s : State) : (s.setRawMode v).txReady = s.txReady := rfl
@[simp] theorem State.setRawMode_trace (v : Bool) (s : State) : (s.setRawMode v).trace = s.trace := rfl

/-! `setDoneCause` -/

@[simp] theorem State.setDoneCause_state (v : DoneCause) (s : State) : (s.setDoneCause v).state = s.state := rfl
@[simp] theorem State.setDoneCause_blockNumber (v : DoneCause) (s : State) : (s.setDoneCause v).blockNumber = s.blockNumber := rfl
@[simp] theorem State.setDoneCause_eofFlag (v : DoneCause) (s : State) : (s.setDoneCause v).eofFlag = s.eofFlag := rfl
@[simp] theorem State.setDoneCause_currentBlock (v : DoneCause) (s : State) : (s.setDoneCause v).currentBlock = s.currentBlock := rfl
@[simp] theorem State.setDoneCause_fileOpen (v : DoneCause) (s : State) : (s.setDoneCause v).fileOpen = s.fileOpen := rfl
@[simp] theorem State.setDoneCause_rawMode (v : DoneCause) (s : State) : (s.setDoneCause v).rawMode = s.rawMode := rfl
@[simp] theorem State.setDoneCause_doneCause (v : DoneCause) (s : State) : (s.setDoneCause v).doneCause = v := rfl
@[simp] theorem State.setDoneCause_progress (v : DoneCause) (s : State) : (s.setDoneCause v).progress = s.progress := rfl
@[simp] theorem State.setDoneCause_returned (v : DoneCause) (s : State) : (s.setDoneCause v).returned = s.returned := rfl
@[simp] theorem State.setDoneCause_srcContent (v : DoneCause) (s : State) : (s.setDoneCause v).srcContent = s.srcContent := rfl
@[simp] theorem State.setDoneCause_srcPos (v : DoneCause) (s : State) : (s.setDoneCause v).srcPos = s.srcPos := rfl
@[simp] theorem State.setDoneCause_srcOpens (v : DoneCause) (s : State) : (s.setDoneCause v).srcOpens = s.srcOpens := rfl
@[simp] theorem State.setDoneCause_srcShort (v : DoneCause) (s : State) : (s.setDoneCause v).srcShort = s.srcShort := rfl
@[simp] theorem State.setDoneCause_srcReady (v : DoneCause) (s : State) : (s.setDoneCause v).srcReady = s.srcReady := rfl
@[simp] theorem State.setDoneCause_rx (v : DoneCause) (s : State) : (s.setDoneCause v).rx = s.rx := rfl
@[simp] theorem State.setDoneCause_rxDepth (v : DoneCause) (s : State) : (s.setDoneCause v).rxDepth = s.rxDepth := rfl
@[simp] theorem State.setDoneCause_txReady (v : DoneCause) (s : State) : (s.setDoneCause v).txReady = s.txReady := rfl
@[simp] theorem State.setDoneCause_trace (v : DoneCause) (s : State) : (s.setDoneCause v).trace = s.trace := rfl

/-! `setProgress` -/

@[simp] theorem State.setProgress_state (v : Progress) (s : State) : (s.setProgress v).state = s.state := rfl
@[simp] theorem State.setProgress_blockNumber (v : Progress) (s : State) : (s.setProgress v).blockNumber = s.blockNumber := rfl
@[simp] theorem State.setProgress_eofFlag (v : Progress) (s : State) : (s.setProgress v).eofFlag = s.eofFlag := rfl
@[simp] theorem State.setProgress_currentBlock (v : Progress) (s : State) : (s.setProgress v).currentBlock = s.currentBlock := rfl
@[simp] theorem State.setProgress_fileOpen (v : Progress) (s : State) : (s.setProgress v).fileOpen = s.fileOpen := rfl
@[simp] theorem State.setProgress_rawMode (v : Progress) (s : State) : (s.setProgress v).rawMode = s.rawMode := rfl
@[simp] theorem State.setProgress_doneCause (v : Progress) (s : State) : (s.setProgress v).doneCause = s.doneCause := rfl
@[simp] theorem State.setProgress_progress (v : Progress) (s : State) : (s.setProgress v).progress = v := rfl
@[simp] theorem State.setProgress_returned (v : Progress) (s : State) : (s.setProgress v).returned = s.returned := rfl
@[simp] theorem State.setProgress_srcContent (v : Progress) (s : State) : (s.setProgress v).srcContent = s.srcContent := rfl
@[simp] theorem State.setProgress_srcPos (v : Progress) (s : State) : (s.setProgress v).srcPos = s.srcPos := rfl
@[simp] theorem State.setProgress_srcOpens (v : Progress) (s : State) : (s.setProgress v).srcOpens = s.srcOpens := rfl
@[simp] theorem State.setProgress_srcShort (v : Progress) (s : State) : (s.setProgress v).srcShort = s.srcShort := rfl
@[simp] theorem State.setProgress_srcReady (v : Progress) (s : State) : (s.setProgress v).srcReady = s.srcReady := rfl
@[simp] theorem State.setProgress_rx (v : Progress) (s : State) : (s.setProgress v).rx = s.rx := rfl
@[simp] theorem State.setProgress_rxDepth (v : Progress) (s : State) : (s.setProgress v).rxDepth = s.rxDepth := rfl
@[simp] theorem State.setProgress_txReady (v : Progress) (s : State) : (s.setProgress v).txReady = s.txReady := rfl
@[simp] theorem State.setProgress_trace (v : Progress) (s : State) : (s.setProgress v).trace = s.trace := rfl

/-! `setReturned` -/

@[simp] theorem State.setReturned_state (v : Byte) (s : State) : (s.setReturned v).state = s.state := rfl
@[simp] theorem State.setReturned_blockNumber (v : Byte) (s : State) : (s.setReturned v).blockNumber = s.blockNumber := rfl
@[simp] theorem State.setReturned_eofFlag (v : Byte) (s : State) : (s.setReturned v).eofFlag = s.eofFlag := rfl
@[simp] theorem State.setReturned_currentBlock (v : Byte) (s : State) : (s.setReturned v).currentBlock = s.currentBlock := rfl
@[simp] theorem State.setReturned_fileOpen (v : Byte) (s : State) : (s.setReturned v).fileOpen = s.fileOpen := rfl
@[simp] theorem State.setReturned_rawMode (v : Byte) (s : State) : (s.setReturned v).rawMode = s.rawMode := rfl
@[simp] theorem State.setReturned_doneCause (v : Byte) (s : State) : (s.setReturned v).doneCause = s.doneCause := rfl
@[simp] theorem State.setReturned_progress (v : Byte) (s : State) : (s.setReturned v).progress = s.progress := rfl
@[simp] theorem State.setReturned_returned (v : Byte) (s : State) : (s.setReturned v).returned = v := rfl
@[simp] theorem State.setReturned_srcContent (v : Byte) (s : State) : (s.setReturned v).srcContent = s.srcContent := rfl
@[simp] theorem State.setReturned_srcPos (v : Byte) (s : State) : (s.setReturned v).srcPos = s.srcPos := rfl
@[simp] theorem State.setReturned_srcOpens (v : Byte) (s : State) : (s.setReturned v).srcOpens = s.srcOpens := rfl
@[simp] theorem State.setReturned_srcShort (v : Byte) (s : State) : (s.setReturned v).srcShort = s.srcShort := rfl
@[simp] theorem State.setReturned_srcReady (v : Byte) (s : State) : (s.setReturned v).srcReady = s.srcReady := rfl
@[simp] theorem State.setReturned_rx (v : Byte) (s : State) : (s.setReturned v).rx = s.rx := rfl
@[simp] theorem State.setReturned_rxDepth (v : Byte) (s : State) : (s.setReturned v).rxDepth = s.rxDepth := rfl
@[simp] theorem State.setReturned_txReady (v : Byte) (s : State) : (s.setReturned v).txReady = s.txReady := rfl
@[simp] theorem State.setReturned_trace (v : Byte) (s : State) : (s.setReturned v).trace = s.trace := rfl

/-! `setSrcPos` -/

@[simp] theorem State.setSrcPos_state (v : Nat) (s : State) : (s.setSrcPos v).state = s.state := rfl
@[simp] theorem State.setSrcPos_blockNumber (v : Nat) (s : State) : (s.setSrcPos v).blockNumber = s.blockNumber := rfl
@[simp] theorem State.setSrcPos_eofFlag (v : Nat) (s : State) : (s.setSrcPos v).eofFlag = s.eofFlag := rfl
@[simp] theorem State.setSrcPos_currentBlock (v : Nat) (s : State) : (s.setSrcPos v).currentBlock = s.currentBlock := rfl
@[simp] theorem State.setSrcPos_fileOpen (v : Nat) (s : State) : (s.setSrcPos v).fileOpen = s.fileOpen := rfl
@[simp] theorem State.setSrcPos_rawMode (v : Nat) (s : State) : (s.setSrcPos v).rawMode = s.rawMode := rfl
@[simp] theorem State.setSrcPos_doneCause (v : Nat) (s : State) : (s.setSrcPos v).doneCause = s.doneCause := rfl
@[simp] theorem State.setSrcPos_progress (v : Nat) (s : State) : (s.setSrcPos v).progress = s.progress := rfl
@[simp] theorem State.setSrcPos_returned (v : Nat) (s : State) : (s.setSrcPos v).returned = s.returned := rfl
@[simp] theorem State.setSrcPos_srcContent (v : Nat) (s : State) : (s.setSrcPos v).srcContent = s.srcContent := rfl
@[simp] theorem State.setSrcPos_srcPos (v : Nat) (s : State) : (s.setSrcPos v).srcPos = v := rfl
@[simp] theorem State.setSrcPos_srcOpens (v : Nat) (s : State) : (s.setSrcPos v).srcOpens = s.srcOpens := rfl
@[simp] theorem State.setSrcPos_srcShort (v : Nat) (s : State) : (s.setSrcPos v).srcShort = s.srcShort := rfl
@[simp] theorem State.setSrcPos_srcReady (v : Nat) (s : State) : (s.setSrcPos v).srcReady = s.srcReady := rfl
@[simp] theorem State.setSrcPos_rx (v : Nat) (s : State) : (s.setSrcPos v).rx = s.rx := rfl
@[simp] theorem State.setSrcPos_rxDepth (v : Nat) (s : State) : (s.setSrcPos v).rxDepth = s.rxDepth := rfl
@[simp] theorem State.setSrcPos_txReady (v : Nat) (s : State) : (s.setSrcPos v).txReady = s.txReady := rfl
@[simp] theorem State.setSrcPos_trace (v : Nat) (s : State) : (s.setSrcPos v).trace = s.trace := rfl

/-! `setSrcShort` -/

@[simp] theorem State.setSrcShort_state (v : List Nat) (s : State) : (s.setSrcShort v).state = s.state := rfl
@[simp] theorem State.setSrcShort_blockNumber (v : List Nat) (s : State) : (s.setSrcShort v).blockNumber = s.blockNumber := rfl
@[simp] theorem State.setSrcShort_eofFlag (v : List Nat) (s : State) : (s.setSrcShort v).eofFlag = s.eofFlag := rfl
@[simp] theorem State.setSrcShort_currentBlock (v : List Nat) (s : State) : (s.setSrcShort v).currentBlock = s.currentBlock := rfl
@[simp] theorem State.setSrcShort_fileOpen (v : List Nat) (s : State) : (s.setSrcShort v).fileOpen = s.fileOpen := rfl
@[simp] theorem State.setSrcShort_rawMode (v : List Nat) (s : State) : (s.setSrcShort v).rawMode = s.rawMode := rfl
@[simp] theorem State.setSrcShort_doneCause (v : List Nat) (s : State) : (s.setSrcShort v).doneCause = s.doneCause := rfl
@[simp] theorem State.setSrcShort_progress (v : List Nat) (s : State) : (s.setSrcShort v).progress = s.progress := rfl
@[simp] theorem State.setSrcShort_returned (v : List Nat) (s : State) : (s.setSrcShort v).returned = s.returned := rfl
@[simp] theorem State.setSrcShort_srcContent (v : List Nat) (s : State) : (s.setSrcShort v).srcContent = s.srcContent := rfl
@[simp] theorem State.setSrcShort_srcPos (v : List Nat) (s : State) : (s.setSrcShort v).srcPos = s.srcPos := rfl
@[simp] theorem State.setSrcShort_srcOpens (v : List Nat) (s : State) : (s.setSrcShort v).srcOpens = s.srcOpens := rfl
@[simp] theorem State.setSrcShort_srcShort (v : List Nat) (s : State) : (s.setSrcShort v).srcShort = v := rfl
@[simp] theorem State.setSrcShort_srcReady (v : List Nat) (s : State) : (s.setSrcShort v).srcReady = s.srcReady := rfl
@[simp] theorem State.setSrcShort_rx (v : List Nat) (s : State) : (s.setSrcShort v).rx = s.rx := rfl
@[simp] theorem State.setSrcShort_rxDepth (v : List Nat) (s : State) : (s.setSrcShort v).rxDepth = s.rxDepth := rfl
@[simp] theorem State.setSrcShort_txReady (v : List Nat) (s : State) : (s.setSrcShort v).txReady = s.txReady := rfl
@[simp] theorem State.setSrcShort_trace (v : List Nat) (s : State) : (s.setSrcShort v).trace = s.trace := rfl

/-! `setSrcReady` -/

@[simp] theorem State.setSrcReady_state (v : Option Nat) (s : State) : (s.setSrcReady v).state = s.state := rfl
@[simp] theorem State.setSrcReady_blockNumber (v : Option Nat) (s : State) : (s.setSrcReady v).blockNumber = s.blockNumber := rfl
@[simp] theorem State.setSrcReady_eofFlag (v : Option Nat) (s : State) : (s.setSrcReady v).eofFlag = s.eofFlag := rfl
@[simp] theorem State.setSrcReady_currentBlock (v : Option Nat) (s : State) : (s.setSrcReady v).currentBlock = s.currentBlock := rfl
@[simp] theorem State.setSrcReady_fileOpen (v : Option Nat) (s : State) : (s.setSrcReady v).fileOpen = s.fileOpen := rfl
@[simp] theorem State.setSrcReady_rawMode (v : Option Nat) (s : State) : (s.setSrcReady v).rawMode = s.rawMode := rfl
@[simp] theorem State.setSrcReady_doneCause (v : Option Nat) (s : State) : (s.setSrcReady v).doneCause = s.doneCause := rfl
@[simp] theorem State.setSrcReady_progress (v : Option Nat) (s : State) : (s.setSrcReady v).progress = s.progress := rfl
@[simp] theorem State.setSrcReady_returned (v : Option Nat) (s : State) : (s.setSrcReady v).returned = s.returned := rfl
@[simp] theorem State.setSrcReady_srcContent (v : Option Nat) (s : State) : (s.setSrcReady v).srcContent = s.srcContent := rfl
@[simp] theorem State.setSrcReady_srcPos (v : Option Nat) (s : State) : (s.setSrcReady v).srcPos = s.srcPos := rfl
@[simp] theorem State.setSrcReady_srcOpens (v : Option Nat) (s : State) : (s.setSrcReady v).srcOpens = s.srcOpens := rfl
@[simp] theorem State.setSrcReady_srcShort (v : Option Nat) (s : State) : (s.setSrcReady v).srcShort = s.srcShort := rfl
@[simp] theorem State.setSrcReady_srcReady (v : Option Nat) (s : State) : (s.setSrcReady v).srcReady = v := rfl
@[simp] theorem State.setSrcReady_rx (v : Option Nat) (s : State) : (s.setSrcReady v).rx = s.rx := rfl
@[simp] theorem State.setSrcReady_rxDepth (v : Option Nat) (s : State) : (s.setSrcReady v).rxDepth = s.rxDepth := rfl
@[simp] theorem State.setSrcReady_txReady (v : Option Nat) (s : State) : (s.setSrcReady v).txReady = s.txReady := rfl
@[simp] theorem State.setSrcReady_trace (v : Option Nat) (s : State) : (s.setSrcReady v).trace = s.trace := rfl

/-! `setRx` -/

@[simp] theorem State.setRx_state (v : List Byte) (s : State) : (s.setRx v).state = s.state := rfl
@[simp] theorem State.setRx_blockNumber (v : List Byte) (s : State) : (s.setRx v).blockNumber = s.blockNumber := rfl
@[simp] theorem State.setRx_eofFlag (v : List Byte) (s : State) : (s.setRx v).eofFlag = s.eofFlag := rfl
@[simp] theorem State.setRx_currentBlock (v : List Byte) (s : State) : (s.setRx v).currentBlock = s.currentBlock := rfl
@[simp] theorem State.setRx_fileOpen (v : List Byte) (s : State) : (s.setRx v).fileOpen = s.fileOpen := rfl
@[simp] theorem State.setRx_rawMode (v : List Byte) (s : State) : (s.setRx v).rawMode = s.rawMode := rfl
@[simp] theorem State.setRx_doneCause (v : List Byte) (s : State) : (s.setRx v).doneCause = s.doneCause := rfl
@[simp] theorem State.setRx_progress (v : List Byte) (s : State) : (s.setRx v).progress = s.progress := rfl
@[simp] theorem State.setRx_returned (v : List Byte) (s : State) : (s.setRx v).returned = s.returned := rfl
@[simp] theorem State.setRx_srcContent (v : List Byte) (s : State) : (s.setRx v).srcContent = s.srcContent := rfl
@[simp] theorem State.setRx_srcPos (v : List Byte) (s : State) : (s.setRx v).srcPos = s.srcPos := rfl
@[simp] theorem State.setRx_srcOpens (v : List Byte) (s : State) : (s.setRx v).srcOpens = s.srcOpens := rfl
@[simp] theorem State.setRx_srcShort (v : List Byte) (s : State) : (s.setRx v).srcShort = s.srcShort := rfl
@[simp] theorem State.setRx_srcReady (v : List Byte) (s : State) : (s.setRx v).srcReady = s.srcReady := rfl
@[simp] theorem State.setRx_rx (v : List Byte) (s : State) : (s.setRx v).rx = v := rfl
@[simp] theorem State.setRx_rxDepth (v : List Byte) (s : State) : (s.setRx v).rxDepth = s.rxDepth := rfl
@[simp] theorem State.setRx_txReady (v : List Byte) (s : State) : (s.setRx v).txReady = s.txReady := rfl
@[simp] theorem State.setRx_trace (v : List Byte) (s : State) : (s.setRx v).trace = s.trace := rfl

/-! `setTxReady` -/

@[simp] theorem State.setTxReady_state (v : Option Nat) (s : State) : (s.setTxReady v).state = s.state := rfl
@[simp] theorem State.setTxReady_blockNumber (v : Option Nat) (s : State) : (s.setTxReady v).blockNumber = s.blockNumber := rfl
@[simp] theorem State.setTxReady_eofFlag (v : Option Nat) (s : State) : (s.setTxReady v).eofFlag = s.eofFlag := rfl
@[simp] theorem State.setTxReady_currentBlock (v : Option Nat) (s : State) : (s.setTxReady v).currentBlock = s.currentBlock := rfl
@[simp] theorem State.setTxReady_fileOpen (v : Option Nat) (s : State) : (s.setTxReady v).fileOpen = s.fileOpen := rfl
@[simp] theorem State.setTxReady_rawMode (v : Option Nat) (s : State) : (s.setTxReady v).rawMode = s.rawMode := rfl
@[simp] theorem State.setTxReady_doneCause (v : Option Nat) (s : State) : (s.setTxReady v).doneCause = s.doneCause := rfl
@[simp] theorem State.setTxReady_progress (v : Option Nat) (s : State) : (s.setTxReady v).progress = s.progress := rfl
@[simp] theorem State.setTxReady_returned (v : Option Nat) (s : State) : (s.setTxReady v).returned = s.returned := rfl
@[simp] theorem State.setTxReady_srcContent (v : Option Nat) (s : State) : (s.setTxReady v).srcContent = s.srcContent := rfl
@[simp] theorem State.setTxReady_srcPos (v : Option Nat) (s : State) : (s.setTxReady v).srcPos = s.srcPos := rfl
@[simp] theorem State.setTxReady_srcOpens (v : Option Nat) (s : State) : (s.setTxReady v).srcOpens = s.srcOpens := rfl
@[simp] theorem State.setTxReady_srcShort (v : Option Nat) (s : State) : (s.setTxReady v).srcShort = s.srcShort := rfl
@[simp] theorem State.setTxReady_srcReady (v : Option Nat) (s : State) : (s.setTxReady v).srcReady = s.srcReady := rfl
@[simp] theorem State.setTxReady_rx (v : Option Nat) (s : State) : (s.setTxReady v).rx = s.rx := rfl
@[simp] theorem State.setTxReady_rxDepth (v : Option Nat) (s : State) : (s.setTxReady v).rxDepth = s.rxDepth := rfl
@[simp] theorem State.setTxReady_txReady (v : Option Nat) (s : State) : (s.setTxReady v).txReady = v := rfl
@[simp] theorem State.setTxReady_trace (v : Option Nat) (s : State) : (s.setTxReady v).trace = s.trace := rfl

/-! `goto` -/

@[simp] theorem State.goto_state (t : CtrlState) (s : State) : (s.goto t).state = t := rfl
@[simp] theorem State.goto_blockNumber (t : CtrlState) (s : State) : (s.goto t).blockNumber = s.blockNumber := rfl
@[simp] theorem State.goto_eofFlag (t : CtrlState) (s : State) : (s.goto t).eofFlag = s.eofFlag := rfl
@[simp] theorem State.goto_currentBlock (t : CtrlState) (s : State) : (s.goto t).currentBlock = s.currentBlock := rfl
@[simp] theorem State.goto_fileOpen (t : CtrlState) (s : State) : (s.goto t).fileOpen = s.fileOpen := rfl
@[simp] theorem State.goto_rawMode (t : CtrlState) (s : State) : (s.goto t).rawMode = s.rawMode := rfl
@[simp] theorem State.goto_doneCause (t : CtrlState) (s : State) : (s.goto t).doneCause = s.doneCause := rfl
@[simp] theorem State.goto_progress (t : CtrlState) (s : State) : (s.goto t).progress = .idle := rfl
@[simp] theorem State.goto_returned (t : CtrlState) (s : State) : (s.goto t).returned = s.returned := rfl
@[simp] theorem State.goto_srcContent (t : CtrlState) (s : State) : (s.goto t).srcContent = s.srcContent := rfl
@[simp] theorem State.goto_srcPos (t : CtrlState) (s : State) : (s.goto t).srcPos = s.srcPos := rfl
@[simp] theorem State.goto_srcOpens (t : CtrlState) (s : State) : (s.goto t).srcOpens = s.srcOpens := rfl
@[simp] theorem State.goto_srcShort (t : CtrlState) (s : State) : (s.goto t).srcShort = s.srcShort := rfl
@[simp] theorem State.goto_srcReady (t : CtrlState) (s : State) : (s.goto t).srcReady = s.srcReady := rfl
@[simp] theorem State.goto_rx (t : CtrlState) (s : State) : (s.goto t).rx = s.rx := rfl
@[simp] theorem State.goto_rxDepth (t : CtrlState) (s : State) : (s.goto t).rxDepth = s.rxDepth := rfl
@[simp] theorem State.goto_txReady (t : CtrlState) (s : State) : (s.goto t).txReady = s.txReady := rfl
@[simp] theorem State.goto_trace (t : CtrlState) (s : State) : (s.goto t).trace = s.trace := rfl

/-! `log` -/

@[simp] theorem State.log_state (es : List Event) (s : State) : (s.log es).state = s.state := rfl
@[simp] theorem State.log_blockNumber (es : List Event) (s : State) : (s.log es).blockNumber = s.blockNumber := rfl
@[simp] theorem State.log_eofFlag (es : List Event) (s : State) : (s.log es).eofFlag = s.eofFlag := rfl
@[simp] theorem State.log_currentBlock (es : List Event) (s : State) : (s.log es).currentBlock = s.currentBlock := rfl
@[simp] theorem State.log_fileOpen (es : List Event) (s : State) : (s.log es).fileOpen = s.fileOpen := rfl
@[simp] theorem State.log_rawMode (es : List Event) (s : State) : (s.log es).rawMode = s.rawMode := rfl
@[simp] theorem State.log_doneCause (es : List Event) (s : State) : (s.log es).doneCause = s.doneCause := rfl
@[simp] theorem State.log_progress (es : List Event) (s : State) : (s.log es).progress = s.progress := rfl
@[simp] theorem State.log_returned (es : List Event) (s : State) : (s.log es).returned = s.returned := rfl
@[simp] theorem State.log_srcContent (es : List Event) (s : State) : (s.log es).srcContent = s.srcContent := rfl
@[simp] theorem State.log_srcPos (es : List Event) (s : State) : (s.log es).srcPos = s.srcPos := rfl
@[simp] theorem State.log_srcOpens (es : List Event) (s : State) : (s.log es).srcOpens = s.srcOpens := rfl
@[simp] theorem State.log_srcShort (es : List Event) (s : State) : (s.log es).srcShort = s.srcShort := rfl
@[simp] theorem State.log_srcReady (es : List Event) (s : State) : (s.log es).srcReady = s.srcReady := rfl
@[simp] theorem State.log_rx (es : List Event) (s : State) : (s.log es).rx = s.rx := rfl
@[simp] theorem State.log_rxDepth (es : List Event) (s : State) : (s.log es).rxDepth = s.rxDepth := rfl
@[simp] theorem State.log_txReady (es : List Event) (s : State) : (s.log es).txReady = s.txReady := rfl
@[simp] theorem State.log_trace (es : List Event) (s : State) : (s.log es).trace = s.trace ++ es := rfl

/-! `handOver` -/

@[simp] theorem State.handOver_state (bs : List Byte) (s : State) : (s.handOver bs).state = s.state := rfl
@[simp] theorem State.handOver_blockNumber (bs : List Byte) (s : State) : (s.handOver bs).blockNumber = s.blockNumber := rfl
@[simp] theorem State.handOver_eofFlag (bs : List Byte) (s : State) : (s.handOver bs).eofFlag = s.eofFlag := rfl
@[simp] theorem State.handOver_currentBlock (bs : List Byte) (s : State) : (s.handOver bs).currentBlock = s.currentBlock := rfl
@[simp] theorem State.handOver_fileOpen (bs : List Byte) (s : State) : (s.handOver bs).fileOpen = s.fileOpen := rfl
@[simp] theorem State.handOver_rawMode (bs : List Byte) (s : State) : (s.handOver bs).rawMode = s.rawMode := rfl
@[simp] theorem State.handOver_doneCause (bs : List Byte) (s : State) : (s.handOver bs).doneCause = s.doneCause := rfl
@[simp] theorem State.handOver_progress (bs : List Byte) (s : State) : (s.handOver bs).progress = s.progress := rfl
@[simp] theorem State.handOver_returned (bs : List Byte) (s : State) : (s.handOver bs).returned = s.returned := rfl
@[simp] theorem State.handOver_srcContent (bs : List Byte) (s : State) : (s.handOver bs).srcContent = s.srcContent := rfl
@[simp] theorem State.handOver_srcPos (bs : List Byte) (s : State) : (s.handOver bs).srcPos = s.srcPos := rfl
@[simp] theorem State.handOver_srcOpens (bs : List Byte) (s : State) : (s.handOver bs).srcOpens = s.srcOpens := rfl
@[simp] theorem State.handOver_srcShort (bs : List Byte) (s : State) : (s.handOver bs).srcShort = s.srcShort := rfl
@[simp] theorem State.handOver_srcReady (bs : List Byte) (s : State) : (s.handOver bs).srcReady = s.srcReady := rfl
@[simp] theorem State.handOver_rx (bs : List Byte) (s : State) : (s.handOver bs).rx = s.rx := rfl
@[simp] theorem State.handOver_rxDepth (bs : List Byte) (s : State) : (s.handOver bs).rxDepth = s.rxDepth := rfl
@[simp] theorem State.handOver_txReady (bs : List Byte) (s : State) : (s.handOver bs).txReady = s.txReady.map (· - bs.length) := rfl
@[simp] theorem State.handOver_trace (bs : List Byte) (s : State) : (s.handOver bs).trace = s.trace ++ bs.map Event.tx := rfl

/-! `enterDone` -/

@[simp] theorem State.enterDone_state (c : DoneCause) (s : State) : (s.enterDone c).state = .done := rfl
@[simp] theorem State.enterDone_blockNumber (c : DoneCause) (s : State) : (s.enterDone c).blockNumber = s.blockNumber := rfl
@[simp] theorem State.enterDone_eofFlag (c : DoneCause) (s : State) : (s.enterDone c).eofFlag = s.eofFlag := rfl
@[simp] theorem State.enterDone_currentBlock (c : DoneCause) (s : State) : (s.enterDone c).currentBlock = s.currentBlock := rfl
@[simp] theorem State.enterDone_fileOpen (c : DoneCause) (s : State) : (s.enterDone c).fileOpen = s.fileOpen := rfl
@[simp] theorem State.enterDone_rawMode (c : DoneCause) (s : State) : (s.enterDone c).rawMode = s.rawMode := rfl
@[simp] theorem State.enterDone_doneCause (c : DoneCause) (s : State) : (s.enterDone c).doneCause = c := rfl
@[simp] theorem State.enterDone_progress (c : DoneCause) (s : State) : (s.enterDone c).progress = .idle := rfl
@[simp] theorem State.enterDone_returned (c : DoneCause) (s : State) : (s.enterDone c).returned = s.returned := rfl
@[simp] theorem State.enterDone_srcContent (c : DoneCause) (s : State) : (s.enterDone c).srcContent = s.srcContent := rfl
@[simp] theorem State.enterDone_srcPos (c : DoneCause) (s : State) : (s.enterDone c).srcPos = s.srcPos := rfl
@[simp] theorem State.enterDone_srcOpens (c : DoneCause) (s : State) : (s.enterDone c).srcOpens = s.srcOpens := rfl
@[simp] theorem State.enterDone_srcShort (c : DoneCause) (s : State) : (s.enterDone c).srcShort = s.srcShort := rfl
@[simp] theorem State.enterDone_srcReady (c : DoneCause) (s : State) : (s.enterDone c).srcReady = s.srcReady := rfl
@[simp] theorem State.enterDone_rx (c : DoneCause) (s : State) : (s.enterDone c).rx = s.rx := rfl
@[simp] theorem State.enterDone_rxDepth (c : DoneCause) (s : State) : (s.enterDone c).rxDepth = s.rxDepth := rfl
@[simp] theorem State.enterDone_txReady (c : DoneCause) (s : State) : (s.enterDone c).txReady = s.txReady := rfl
@[simp] theorem State.enterDone_trace (c : DoneCause) (s : State) : (s.enterDone c).trace = s.trace := rfl

/-! The four conditions, as updates already covered. -/

@[simp] theorem State.takeCondition_sourceUnavailable (s : State) :
    s.takeCondition .sourceUnavailable = s.enterDone .sourceUnavailable := rfl
@[simp] theorem State.takeCondition_peerCancelled (s : State) : s.takeCondition .peerCancelled = s.enterDone .peerCancelled := rfl
@[simp] theorem State.takeCondition_peerRejectedBlock (s : State) : s.takeCondition .peerRejectedBlock = s.goto .send := rfl
@[simp] theorem State.takeCondition_unrecognizedControlByte (s : State) :
    s.takeCondition .unrecognizedControlByte = s.goto .awaitAck := rfl

end Sys2Proof.Machine
end

