-- ==== Sys2Proof/Laws/Frame.lean ====
section
/-! SUPPORT. What BUILD_BLOCK leaves in the buffer and in the registers. -/

namespace Sys2Proof.Machine

theorem srcAnswer_length (s : State) : (srcAnswer s).length ≤ 128 := by
  simp [srcAnswer]

/-- The filled payload area reads as the padded data; every other offset as before (R122). -/
theorem read_fillPayload {d : List Byte} (h : d.length ≤ 128) (m : Memory) (x : Nat) :
    (fillPayload d m).read x = if 3 ≤ x ∧ x < 131 then (padded d).getD (x - 3) 0 else m.read x := by
  simp only [fillPayload, Memory.read_writeRange, List.length_replicate, Config.headerLen, Config.payloadLen]
  by_cases h1 : 3 ≤ x ∧ x < 3 + d.length
  · rw [if_pos h1, if_pos (by omega), padded, List.getD_append _ _ _ _ (by omega)]
  · rw [if_neg h1]
    by_cases h2 : 3 ≤ x ∧ x < 131
    · rw [if_pos h2, if_pos (by omega), padded, List.getD_append_right _ _ _ _ (by omega)]
      simp only [List.getD_eq_getElem?_getD, List.getElem?_replicate, Config.PAD, Config.payloadLen]
      rw [if_pos (by omega), if_pos (by omega)]
    · rw [if_neg h2, if_neg (by omega)]

/-- The payload area of an assembled buffer is the one that was filled. -/
theorem readRange_payload_assemble (bn : Byte) (m : Memory) :
    (assemble bn m).readRange 3 128 = m.readRange 3 128 :=
  Memory.readRange_congr _ _ _ _ fun x h1 h2 => by
    simp only [assemble, Memory.read_write, Config.checksumOffset]
    rw [if_neg (by omega), if_neg (by omega), if_neg (by omega), if_neg (by omega)]

theorem readRange_fillPayload {d : List Byte} (h : d.length ≤ 128) (m : Memory) :
    (fillPayload d m).readRange 3 128 = padded d := by
  have := Memory.readRange_eq_of_read (fillPayload d m) 3 (padded d) fun i hi => by
    rw [length_padded h] at hi
    rw [read_fillPayload h, if_pos (by omega)]
    simp [List.getD_eq_getElem?_getD, length_padded h, hi]
  rwa [length_padded h] at this

theorem read_assemble (bn : Byte) (m : Memory) (x : Nat) :
    (assemble bn m).read x =
      if x = 0 then Config.SOH
      else if x = 1 then sequenceByte bn
      else if x = 2 then complementByte (sequenceByte bn)
      else if x = 131 then checksumOf (m.readRange 3 128)
      else m.read x := by
  have hp : ((((m.write 0 Config.SOH).write 1 (sequenceByte bn)).write 2
      (complementByte (sequenceByte bn))).readRange 3 128) = m.readRange 3 128 :=
    Memory.readRange_congr _ _ _ _ fun x h1 h2 => by
      simp only [Memory.read_write]
      rw [if_neg (by omega), if_neg (by omega), if_neg (by omega)]
  simp only [assemble, Config.headerLen, Config.payloadLen, Config.checksumOffset, hp, Memory.read_write]
  split_ifs <;> first | (exfalso; omega) | rfl

/-- The whole frame a build leaves, as one expression (R128). -/
theorem readRange_assemble_fill {d : List Byte} (h : d.length ≤ 128) (bn : Byte) (m : Memory) :
    (assemble bn (fillPayload d m)).readRange 0 132 =
      frameBytes (sequenceByte bn) (complementByte (sequenceByte bn)) (padded d) (checksumOf (padded d)) := by
  have h1 := Memory.readRange_append (assemble bn (fillPayload d m)) 0 3 (128 + 1)
  have h2 := Memory.readRange_append (assemble bn (fillPayload d m)) (0 + 3) 128 1
  have h3 : ∀ m' : Memory, m'.readRange 0 3 = [m'.read 0, m'.read 1, m'.read 2] := fun _ => rfl
  have h4 : ∀ m' : Memory, m'.readRange (0 + 3 + 128) 1 = [m'.read 131] := fun _ => rfl
  rw [h2, h3, h4, Nat.zero_add, readRange_payload_assemble, readRange_fillPayload h] at h1
  rw [show (132 : Nat) = 3 + (128 + 1) from rfl, h1]
  simp only [read_assemble, readRange_fillPayload h, frameBytes]
  rfl

theorem wf_assemble_fill {d : List Byte} (h : d.length ≤ 128) (bn : Byte) {m : Memory} (w : m.wf = true) :
    (assemble bn (fillPayload d m)).wf = true := by
  have w1 : (fillPayload d m).wf = true :=
    Memory.wf_writeRange _ (by simp; omega) (Memory.wf_writeRange _ (by simp) w)
  exact Memory.wf_write _ (by simp) (Memory.wf_write _ (by omega) (Memory.wf_write _ (by omega)
    (Memory.wf_write _ (by omega) w1)))

section
variable (d : List Byte) (s : State)

@[simp] theorem buildFrom_state : (buildFrom d s).state = s.state := by
  simp only [buildFrom, State.setEofFlag_state, State.setCurrentBlock_state]
@[simp] theorem buildFrom_blockNumber : (buildFrom d s).blockNumber = s.blockNumber := by
  simp only [buildFrom, State.setEofFlag_blockNumber, State.setCurrentBlock_blockNumber]
@[simp] theorem buildFrom_eofFlag : (buildFrom d s).eofFlag = s.eofAfter d.length := by
  simp only [buildFrom, State.setEofFlag_eofFlag]
@[simp] theorem buildFrom_currentBlock :
    (buildFrom d s).currentBlock = assemble s.blockNumber (fillPayload d s.currentBlock) := by
  simp only [buildFrom, State.setEofFlag_currentBlock, State.setCurrentBlock_currentBlock]
@[simp] theorem buildFrom_fileOpen : (buildFrom d s).fileOpen = s.fileOpen := by
  simp only [buildFrom, State.setEofFlag_fileOpen, State.setCurrentBlock_fileOpen]
@[simp] theorem buildFrom_rawMode : (buildFrom d s).rawMode = s.rawMode := by
  simp only [buildFrom, State.setEofFlag_rawMode, State.setCurrentBlock_rawMode]
@[simp] theorem buildFrom_doneCause : (buildFrom d s).doneCause = s.doneCause := by
  simp only [buildFrom, State.setEofFlag_doneCause, State.setCurrentBlock_doneCause]
@[simp] theorem buildFrom_progress : (buildFrom d s).progress = s.progress := by
  simp only [buildFrom, State.setEofFlag_progress, State.setCurrentBlock_progress]
@[simp] theorem buildFrom_returned : (buildFrom d s).returned = s.returned := by
  simp only [buildFrom, State.setEofFlag_returned, State.setCurrentBlock_returned]
@[simp] theorem buildFrom_srcContent : (buildFrom d s).srcContent = s.srcContent := by
  simp only [buildFrom, State.setEofFlag_srcContent, State.setCurrentBlock_srcContent]
@[simp] theorem buildFrom_srcPos : (buildFrom d s).srcPos = s.srcPos := by
  simp only [buildFrom, State.setEofFlag_srcPos, State.setCurrentBlock_srcPos]
@[simp] theorem buildFrom_srcOpens : (buildFrom d s).srcOpens = s.srcOpens := by
  simp only [buildFrom, State.setEofFlag_srcOpens, State.setCurrentBlock_srcOpens]
@[simp] theorem buildFrom_srcShort : (buildFrom d s).srcShort = s.srcShort := by
  simp only [buildFrom, State.setEofFlag_srcShort, State.setCurrentBlock_srcShort]
@[simp] theorem buildFrom_srcReady : (buildFrom d s).srcReady = s.srcReady := by
  simp only [buildFrom, State.setEofFlag_srcReady, State.setCurrentBlock_srcReady]
@[simp] theorem buildFrom_rx : (buildFrom d s).rx = s.rx := by
  simp only [buildFrom, State.setEofFlag_rx, State.setCurrentBlock_rx]
@[simp] theorem buildFrom_rxDepth : (buildFrom d s).rxDepth = s.rxDepth := by
  simp only [buildFrom, State.setEofFlag_rxDepth, State.setCurrentBlock_rxDepth]
@[simp] theorem buildFrom_txReady : (buildFrom d s).txReady = s.txReady := by
  simp only [buildFrom, State.setEofFlag_txReady, State.setCurrentBlock_txReady]
@[simp] theorem buildFrom_trace : (buildFrom d s).trace = s.trace := by
  simp only [buildFrom, State.setEofFlag_trace, State.setCurrentBlock_trace]

end

/-- The state a read leaves, once the source answered with readiness `r` left. -/
def afterRead (r : Option Nat) (s : State) : State :=
  (((s.setSrcReady r).setSrcPos (s.srcPos + (srcAnswer s).length)).setSrcShort s.srcShort.tail).log
    [.srcRead (srcAnswer s)]

/-- Everything `SrcRead128()` can do. -/
theorem srcRead128_cases (s : State) :
    (s.srcReady = some 0 ∧ srcRead128 s = none) ∨
    (∃ r, spend s.srcReady = some r ∧ srcRead128 s = some (srcAnswer s, afterRead r s)) := by
  unfold srcRead128 afterRead
  cases h : s.srcReady with
  | none => exact .inr ⟨none, rfl, rfl⟩
  | some n =>
    cases n with
    | zero => exact .inl ⟨rfl, rfl⟩
    | succ n => exact .inr ⟨some n, rfl, rfl⟩

/-- Everything `BUILD_BLOCK` can do: wait for the source, or read once and build. -/
theorem buildBlock_cases (s : State) :
    (s.srcReady = some 0 ∧ buildBlock s = none) ∨
    (∃ r, spend s.srcReady = some r ∧ buildBlock s = some (buildFrom (srcAnswer s) (afterRead r s))) := by
  unfold buildBlock
  rcases srcRead128_cases s with ⟨h, e⟩ | ⟨r, h, e⟩
  · exact .inl ⟨h, by rw [e]⟩
  · exact .inr ⟨r, h, by rw [e]⟩

theorem spend_eq_map {o r : Option Nat} (h : spend o = some r) : r = o.map (· - 1) := by
  cases o with
  | none => simpa [spend] using h.symm
  | some n => cases n <;> simp [spend] at h ⊢; exact h.symm

/-- What `BUILD_BLOCK` leaves when the source answers, as one record. -/
theorem buildBlock_of_ready {s : State} (hr : s.srcReady ≠ some 0) :
    buildBlock s = some { s with
      currentBlock := assemble s.blockNumber (fillPayload (srcAnswer s) s.currentBlock)
      eofFlag := s.eofFlag || decide ((srcAnswer s).length < 128)
      srcPos := s.srcPos + (srcAnswer s).length
      srcShort := s.srcShort.tail
      srcReady := s.srcReady.map (· - 1)
      trace := s.trace ++ [.srcRead (srcAnswer s)] } := by
  rcases buildBlock_cases s with ⟨h0, _⟩ | ⟨r, hs, e⟩
  · exact absurd h0 hr
  · rw [e, ← spend_eq_map hs]
    simp only [buildFrom, afterRead, State.log, State.setSrcReady, State.setSrcPos, State.setSrcShort,
      State.setCurrentBlock, State.setEofFlag, State.eofAfter, eofSeen, Config.payloadLen]

end Sys2Proof.Machine
end

