-- ==== Sys2Proof/Laws/PerInstr.lean ====
section
/-! SUPPORT. Facts of every instruction as syntax, one lemma a constructor. -/

namespace Sys2Proof.Laws.EncodedWidth

/-- The encoding of a well-formed instruction fills the width its row of spec/opcode_table.json gives, rounded up to
whole bytes; a row of width 0 has no encoding (30_encoding.md R81, R88, R89, R91, R92, R96). -/
def Statement (i : Instr) : Prop :=
  match encode i with
  | none => tableBits i = 0
  | some (_, ws) => i.wf = true → ws.length = (tableBits i + 7) / 8

theorem ack : Statement .ack := fun _ => rfl
theorem nak : Statement .nak := fun _ => rfl
theorem can : Statement .can := fun _ => rfl
theorem ignored (b : Byte) : Statement (.ignored b) := by intro; simp [tableBits]
theorem eotResponse (b : Byte) : Statement (.eotResponse b) := by intro; simp [tableBits]
theorem block (q c : Byte) (p : List Byte) (k : Byte) : Statement (.block q c p k) := fun h => by
  simp only [Instr.wf, Bool.and_eq_true, beq_iff_eq] at h
  simp [h.1.1, tableBits]
theorem eot : Statement .eot := fun _ => rfl
theorem opInit : Statement .opInit := fun _ => rfl
theorem opAwaitAck : Statement .opAwaitAck := fun _ => rfl
theorem opAdvance : Statement .opAdvance := fun _ => rfl
theorem opBuild : Statement .opBuild := fun _ => rfl
theorem opSend : Statement .opSend := fun _ => rfl
theorem opSendEot : Statement .opSendEot := fun _ => rfl
theorem opDone : Statement .opDone := fun _ => rfl
theorem checksum8 (p : List Byte) : Statement (.checksum8 p) := rfl
theorem buildBlock : Statement .buildBlock := rfl
theorem emit (bs : List Byte) : Statement (.emit bs) := rfl
theorem awaitByte : Statement .awaitByte := rfl

end Sys2Proof.Laws.EncodedWidth
end

