-- ==== Sys2Proof/Laws/Ports.lean ====
section
/-! SUPPORT. What each port primitive and each shared operation of the link driver and the controller can do. -/

namespace Sys2Proof.Machine

@[simp] theorem spend_none : spend none = some none := rfl
@[simp] theorem spend_zero : spend (some 0) = none := rfl
@[simp] theorem spend_succ (n : Nat) : spend (some (n + 1)) = some (some n) := rfl

theorem spend_eq_none {o : Option Nat} : spend o = none ↔ o = some 0 := by
  cases o with
  | none => simp
  | some n => cases n <;> simp

/-- Everything `SrcOpen()` can do. -/
theorem srcOpen_cases (s : State) :
    (s.srcReady = some 0 ∧ srcOpen s = none) ∨
    (∃ r, spend s.srcReady = some r ∧ s.srcOpens = true ∧
      srcOpen s = some (true, ((s.setSrcReady r).setSrcPos 0).log [.srcOpenOk])) ∨
    (∃ r, spend s.srcReady = some r ∧ s.srcOpens = false ∧
      srcOpen s = some (false, (s.setSrcReady r).log [.srcOpenFail])) := by
  unfold srcOpen
  cases h : spend s.srcReady with
  | none => exact .inl ⟨spend_eq_none.mp h, rfl⟩
  | some r =>
    cases ho : s.srcOpens with
    | true => exact .inr (.inl ⟨r, rfl, rfl, rfl⟩)
    | false => exact .inr (.inr ⟨r, rfl, rfl, rfl⟩)

/-- Everything `Rx()` can do. -/
theorem rxByte_cases (s : State) :
    (s.rx = [] ∧ rxByte s = none) ∨
    (∃ b rest, s.rx = b :: rest ∧ rxByte s = some (b, (s.setRx rest).log [.rx b])) := by
  unfold rxByte
  cases h : s.rx with
  | nil => exact .inl ⟨rfl, rfl⟩
  | cons b rest => exact .inr ⟨b, rest, rfl, rfl⟩

@[simp] theorem channelTakes_none (n : Nat) : channelTakes none n = n := rfl
@[simp] theorem channelTakes_some (r n : Nat) : channelTakes (some r) n = min r n := rfl

theorem channelTakes_le (o : Option Nat) (n : Nat) : channelTakes o n ≤ n := by
  cases o with
  | none => exact Nat.le_refl n
  | some r => exact Nat.min_le_right r n

theorem channelTakes_eq_zero {o : Option Nat} {n : Nat} (hn : 0 < n) : channelTakes o n = 0 ↔ o = some 0 := by
  cases o with
  | none => simp; omega
  | some r => simp; omega

@[simp] theorem handOver_nil (s : State) : s.handOver [] = s := by
  cases s; simp [State.handOver]

/-- Two hand-overs in a row are one of both byte sequences. -/
theorem handOver_handOver (s : State) (xs ys : List Byte) :
    (s.handOver xs).handOver ys = s.handOver (xs ++ ys) := by
  simp only [State.handOver, List.map_append, List.append_assoc, Option.map_map, List.length_append]
  congr 2
  funext n
  simp only [Function.comp]
  omega

/-- Everything `EMIT` can do: hand over the rest; hand over a part and mark how far it got; or wait. -/
theorem emit_cases (bs : List Byte) (s : State) :
    (emit bs s = (true, (s.handOver (bs.drop s.progress.sentSoFar)).setProgress .idle)) ∨
    (∃ m, 0 < m ∧ s.progress.sentSoFar + m < bs.length ∧ m = channelTakes s.txReady (bs.length - s.progress.sentSoFar) ∧
      emit bs s = (false, (s.handOver ((bs.drop s.progress.sentSoFar).take m)).setProgress
        (.sending (s.progress.sentSoFar + m)))) ∨
    (s.txReady = some 0 ∧ s.progress.sentSoFar < bs.length ∧ emit bs s = (false, s)) := by
  generalize hk : s.progress.sentSoFar = k
  generalize hm : channelTakes s.txReady (bs.length - k) = m
  have hle := channelTakes_le s.txReady (bs.length - k)
  rw [hm] at hle
  have e : emit bs s = if bs.length ≤ k + m then (true, (s.handOver ((bs.drop k).take m)).setProgress .idle)
      else (false, if m = 0 then s.handOver ((bs.drop k).take m)
        else (s.handOver ((bs.drop k).take m)).setProgress (.sending (k + m))) := by
    simp only [emit, hk, hm]
  rw [e]
  by_cases h1 : bs.length ≤ k + m
  · left
    rw [if_pos h1, List.take_of_length_le (by simp; omega)]
  · right
    rw [if_neg h1]
    by_cases h2 : m = 0
    · right
      subst h2
      have h0 : s.txReady = some 0 := (channelTakes_eq_zero (by omega)).mp hm
      exact ⟨h0, by omega, by simp⟩
    · left
      exact ⟨m, by omega, by omega, rfl, by rw [if_neg h2]⟩

/-- With a channel that takes every byte, `EMIT` hands over all that is left. -/
theorem emit_of_txReady_none (bs : List Byte) {s : State} (h : s.txReady = none) :
    emit bs s = (true, (s.handOver (bs.drop s.progress.sentSoFar)).setProgress .idle) := by
  rcases emit_cases bs s with e | ⟨m, h1, h2, h3, _⟩ | ⟨h0, _, _⟩
  · exact e
  · rw [h] at h3; simp at h3; omega
  · simp [h] at h0

end Sys2Proof.Machine
end

