-- ==== Sys2Proof/Laws/Step.lean ====
section
/-! SUPPORT. What a step is in each state, and what each controller operation can do. -/

namespace Sys2Proof.Machine

theorem isFinal_of_ne_done {s : State} (h : s.state ≠ .done) : s.isFinal = false := by
  simp [State.isFinal, h]

theorem step_init {s : State} (h : s.state = .init) : step s = execOpInit s := by
  simp [step, isFinal_of_ne_done (s := s) (by simp [h]), fetch, h, exec]

theorem step_awaitAck {s : State} (h : s.state = .awaitAck) : step s = execOpAwaitAck s := by
  simp [step, isFinal_of_ne_done (s := s) (by simp [h]), fetch, h, exec]

theorem step_advance {s : State} (h : s.state = .advance) : step s = execOpAdvance s := by
  simp [step, isFinal_of_ne_done (s := s) (by simp [h]), fetch, h, exec]

theorem step_build {s : State} (h : s.state = .build) : step s = execOpBuild s := by
  simp [step, isFinal_of_ne_done (s := s) (by simp [h]), fetch, h, exec]

theorem step_send {s : State} (h : s.state = .send) : step s = execOpSend s := by
  simp [step, isFinal_of_ne_done (s := s) (by simp [h]), fetch, h, exec]

theorem step_sendEot {s : State} (h : s.state = .sendEot) : step s = execOpSendEot s := by
  simp [step, isFinal_of_ne_done (s := s) (by simp [h]), fetch, h, exec]

theorem step_done {s : State} (h : s.state = .done) (hf : s.isFinal = false) : step s = execOpDone s := by
  simp [step, hf, fetch, h, exec]

theorem step_final {s : State} (hf : s.isFinal = true) : step s = .next s := by
  simp [step, hf]

/-- A run of one step more, once the first step is known. -/
theorem run_succ {s u : State} (n : Nat) (h : step s = .next u) :
    Sys2Proof.core.run (n + 1) s = Sys2Proof.core.run n u := by
  have h' : Sys2Proof.core.step s = .next u := h
  simp only [Host.Core.run, h']

/-- Everything the second part of `OP_INIT` can do. -/
theorem initBuild_cases (s : State) :
    (s.srcReady = some 0 ∧ initBuild s = s) ∨
    (∃ r, spend s.srcReady = some r ∧
      initBuild s = ((buildFrom (srcAnswer s) (afterRead r s)).setRawMode true).goto .awaitAck) := by
  unfold initBuild
  rcases buildBlock_cases s with ⟨h, e⟩ | ⟨r, h, e⟩
  · exact .inl ⟨h, by rw [e]⟩
  · exact .inr ⟨r, h, by rw [e]⟩

/-- The state a successful open leaves, once the source answered with readiness `r` left (R151). -/
def afterOpen (r : Option Nat) (s : State) : State :=
  ((((s.setSrcReady r).setSrcPos 0).log [.srcOpenOk]).setFileOpen true).setProgress .opened

/-- Everything `OP_INIT` can do. -/
theorem execOpInit_cases (s : State) :
    (s.progress = .opened ∧ execOpInit s = .next (initBuild s)) ∨
    (s.progress ≠ .opened ∧ s.srcReady = some 0 ∧ execOpInit s = .next s) ∨
    (∃ r, s.progress ≠ .opened ∧ spend s.srcReady = some r ∧ s.srcOpens = true ∧
      execOpInit s = .next (initBuild (afterOpen r s))) ∨
    (∃ r, s.progress ≠ .opened ∧ spend s.srcReady = some r ∧ s.srcOpens = false ∧
      execOpInit s = .next (((s.setSrcReady r).log [.srcOpenFail]).enterDone .sourceUnavailable)) := by
  unfold execOpInit afterOpen
  by_cases hp : s.progress = .opened
  · exact .inl ⟨hp, by rw [if_pos hp]⟩
  · rw [if_neg hp]
    rcases srcOpen_cases s with ⟨h, e⟩ | ⟨r, h, ho, e⟩ | ⟨r, h, ho, e⟩
    · exact .inr (.inl ⟨hp, h, by rw [e]⟩)
    · exact .inr (.inr (.inl ⟨r, hp, h, ho, by rw [e]⟩))
    · exact .inr (.inr (.inr ⟨r, hp, h, ho, by rw [e]; rfl⟩))

/-- Everything `OP_AWAIT_ACK` can do. -/
theorem execOpAwaitAck_cases (s : State) :
    (s.rx = [] ∧ execOpAwaitAck s = .next s) ∨
    (∃ rest, s.rx = Config.CAN :: rest ∧
      execOpAwaitAck s = .next (((s.setRx rest).log [.rx Config.CAN]).enterDone .peerCancelled)) ∨
    (∃ rest, s.rx = Config.ACK :: rest ∧
      execOpAwaitAck s = .next (((s.setRx rest).log [.rx Config.ACK]).goto .advance)) ∨
    (∃ rest, s.rx = Config.NAK :: rest ∧
      execOpAwaitAck s = .next (((s.setRx rest).log [.rx Config.NAK]).goto .send)) ∨
    (∃ b rest, b ≠ Config.CAN ∧ b ≠ Config.ACK ∧ b ≠ Config.NAK ∧ s.rx = b :: rest ∧
      execOpAwaitAck s = .next (((s.setRx rest).log [.rx b]).goto .awaitAck)) := by
  unfold execOpAwaitAck
  rcases rxByte_cases s with ⟨h, e⟩ | ⟨b, rest, h, e⟩
  · exact .inl ⟨h, by rw [e]⟩
  · right
    rw [e]
    by_cases h1 : b = Config.CAN
    · subst h1; exact .inl ⟨rest, h, rfl⟩
    by_cases h2 : b = Config.ACK
    · subst h2; exact .inr (.inl ⟨rest, h, rfl⟩)
    by_cases h3 : b = Config.NAK
    · subst h3; exact .inr (.inr (.inl ⟨rest, h, rfl⟩))
    · refine .inr (.inr (.inr ⟨b, rest, h1, h2, h3, h, ?_⟩))
      simp only [if_neg h1, if_neg h2, if_neg h3, execIgnored, State.takeCondition_unrecognizedControlByte]

/-- Everything `OP_BUILD` can do. -/
theorem execOpBuild_cases (s : State) :
    (s.fileOpen = false ∧ execOpBuild s = .fault .sourceNotOpen) ∨
    (s.fileOpen = true ∧ s.srcReady = some 0 ∧ execOpBuild s = .next s) ∨
    (∃ r, s.fileOpen = true ∧ spend s.srcReady = some r ∧
      execOpBuild s = .next ((buildFrom (srcAnswer s) (afterRead r s)).goto .send)) := by
  unfold execOpBuild
  cases hf : s.fileOpen with
  | false => exact .inl ⟨rfl, rfl⟩
  | true =>
    right
    rcases buildBlock_cases s with ⟨h, e⟩ | ⟨r, h, e⟩
    · exact .inl ⟨rfl, h, by simp [e]⟩
    · exact .inr ⟨r, rfl, h, by simp [e]⟩

/-- Everything a frame's emission can do. -/
theorem sendFrame_cases (bs : List Byte) (s : State) :
    (sendFrame bs s = (s.handOver (bs.drop s.progress.sentSoFar)).goto .awaitAck) ∨
    (∃ m, 0 < m ∧ s.progress.sentSoFar + m < bs.length ∧ m = channelTakes s.txReady (bs.length - s.progress.sentSoFar) ∧
      sendFrame bs s = (s.handOver ((bs.drop s.progress.sentSoFar).take m)).setProgress
        (.sending (s.progress.sentSoFar + m))) ∨
    (s.txReady = some 0 ∧ s.progress.sentSoFar < bs.length ∧ sendFrame bs s = s) := by
  unfold sendFrame
  rcases emit_cases bs s with e | ⟨m, h1, h2, h3, e⟩ | ⟨h1, h2, e⟩
  · exact .inl (by rw [e]; rfl)
  · exact .inr (.inl ⟨m, h1, h2, h3, by rw [e]⟩)
  · exact .inr (.inr ⟨h1, h2, by rw [e]⟩)

/-- Everything the wait for the EOT's answer can do. -/
theorem eotAnswer_cases (s : State) :
    (s.rx = [] ∧ eotAnswer s = .next s) ∨
    (∃ b rest, s.rx = b :: rest ∧
      eotAnswer s = .next (((s.setRx rest).log [.rx b]).enterDone .complete)) := by
  unfold eotAnswer
  rcases rxByte_cases s with ⟨h, e⟩ | ⟨b, rest, h, e⟩
  · exact .inl ⟨h, by rw [e]⟩
  · exact .inr ⟨b, rest, h, by rw [e]; rfl⟩

/-- The state after the EOT is handed over. -/
def afterEot (s : State) : State := (s.handOver [Config.EOT]).setProgress .eotSent

/-- Everything `OP_SEND_EOT` can do. -/
theorem execOpSendEot_cases (s : State) :
    (s.progress = .eotSent ∧ execOpSendEot s = eotAnswer s) ∨
    (s.progress ≠ .eotSent ∧ s.txReady = some 0 ∧ execOpSendEot s = .next s) ∨
    (s.progress ≠ .eotSent ∧ s.txReady ≠ some 0 ∧ execOpSendEot s = eotAnswer (afterEot s)) := by
  unfold execOpSendEot sendEotByte afterEot
  by_cases hp : s.progress = .eotSent
  · exact .inl ⟨hp, by rw [if_pos hp]⟩
  · rw [if_neg hp]
    by_cases ht : s.txReady = some 0
    · exact .inr (.inl ⟨hp, ht, by simp [State.txTakes, ht]⟩)
    · exact .inr (.inr ⟨hp, ht, by simp [State.txTakes, ht]⟩)

/-- The release closes the source if it is open and lowers `raw_mode` (R157). -/
@[simp] theorem release_state (s : State) : s.release.state = s.state := by
  simp only [State.release]; split <;> rfl
@[simp] theorem release_fileOpen (s : State) : s.release.fileOpen = false := by
  unfold State.release
  cases h : s.fileOpen <;> simp [h]
@[simp] theorem release_rawMode (s : State) : s.release.rawMode = false := by
  simp only [State.release]; split <;> rfl
@[simp] theorem release_doneCause (s : State) : s.release.doneCause = s.doneCause := by
  simp only [State.release]; split <;> rfl
@[simp] theorem release_progress (s : State) : s.release.progress = s.progress := by
  simp only [State.release]; split <;> rfl
@[simp] theorem release_blockNumber (s : State) : s.release.blockNumber = s.blockNumber := by
  simp only [State.release]; split <;> rfl
@[simp] theorem release_eofFlag (s : State) : s.release.eofFlag = s.eofFlag := by
  simp only [State.release]; split <;> rfl
@[simp] theorem release_currentBlock (s : State) : s.release.currentBlock = s.currentBlock := by
  simp only [State.release]; split <;> rfl
@[simp] theorem release_rx (s : State) : s.release.rx = s.rx := by
  simp only [State.release]; split <;> rfl
@[simp] theorem release_txReady (s : State) : s.release.txReady = s.txReady := by
  simp only [State.release]; split <;> rfl
@[simp] theorem release_srcReady (s : State) : s.release.srcReady = s.srcReady := by
  simp only [State.release]; split <;> rfl
@[simp] theorem release_returned (s : State) : s.release.returned = s.returned := by
  simp only [State.release]; split <;> rfl
@[simp] theorem release_srcContent (s : State) : s.release.srcContent = s.srcContent := by
  simp only [State.release]; split <;> rfl
@[simp] theorem release_srcPos (s : State) : s.release.srcPos = s.srcPos := by
  simp only [State.release]; split <;> rfl
@[simp] theorem release_srcOpens (s : State) : s.release.srcOpens = s.srcOpens := by
  simp only [State.release]; split <;> rfl
@[simp] theorem release_srcShort (s : State) : s.release.srcShort = s.srcShort := by
  simp only [State.release]; split <;> rfl
@[simp] theorem release_rxDepth (s : State) : s.release.rxDepth = s.rxDepth := by
  simp only [State.release]; split <;> rfl
@[simp] theorem release_trace (s : State) :
    s.release.trace = s.trace ++ (if s.fileOpen then [Event.srcClose] else []) := by
  unfold State.release
  cases h : s.fileOpen <;> simp [srcClose]

end Sys2Proof.Machine
end

