-- ==== Sys2Proof/Laws/Trace.lean ====
section
/-! SUPPORT. How the views of a trace split over its parts, and when a buffer holds a frame. -/

namespace Sys2Proof.Machine

@[simp] theorem outboundOf_append (a b : List Event) : outboundOf (a ++ b) = outboundOf a ++ outboundOf b := by
  simp [outboundOf]
@[simp] theorem inboundOf_append (a b : List Event) : inboundOf (a ++ b) = inboundOf a ++ inboundOf b := by
  simp [inboundOf]
@[simp] theorem readsIn_append (a b : List Event) : readsIn (a ++ b) = readsIn a + readsIn b := by
  simp [readsIn]
@[simp] theorem acksIn_append (a b : List Event) : acksIn (a ++ b) = acksIn a + acksIn b := by
  simp [acksIn]

@[simp] theorem outboundOf_map_tx (bs : List Byte) : outboundOf (bs.map Event.tx) = bs := by
  induction bs with
  | nil => rfl
  | cons b bs ih => exact congrArg (b :: ·) ih
@[simp] theorem inboundOf_map_tx (bs : List Byte) : inboundOf (bs.map Event.tx) = [] := by
  induction bs with
  | nil => rfl
  | cons b bs ih => exact ih
@[simp] theorem readsIn_map_tx (bs : List Byte) : readsIn (bs.map Event.tx) = 0 := by
  simp [readsIn, Event.isRead]
@[simp] theorem acksIn_map_tx (bs : List Byte) : acksIn (bs.map Event.tx) = 0 := by
  simp [acksIn, Event.isAck]

/-- R129: a sequence byte and its complement add to 255. -/
theorem toNat_add_complementByte (q : Byte) : q.toNat + (complementByte q).toNat = 255 := by
  have := q.isLt
  rw [complementByte, BitVec.toNat_sub]
  simp
  omega

/-- A buffer with the marker, a matching complement and the right checksum holds a frame. -/
theorem isFrame_readRange {m : Memory} (h0 : m.read 0 = Config.SOH)
    (h2 : (m.read 1).toNat + (m.read 2).toNat = 255) (h3 : m.read 131 = checksumOf (m.readRange 3 128)) :
    IsFrame (m.readRange 0 132) := by
  refine ⟨m.read 1, m.readRange 3 128, by simp, ?_⟩
  have e1 := Memory.readRange_append m 0 3 (128 + 1)
  have e2 := Memory.readRange_append m (0 + 3) 128 1
  have e3 : m.readRange 0 3 = [m.read 0, m.read 1, m.read 2] := rfl
  have e4 : m.readRange (0 + 3 + 128) 1 = [m.read 131] := rfl
  have e5 : m.read 2 = complementByte (m.read 1) := by
    apply BitVec.eq_of_toNat_eq
    have := toNat_add_complementByte (m.read 1)
    omega
  rw [e2, e3, e4, Nat.zero_add] at e1
  rw [show (132 : Nat) = 3 + (128 + 1) from rfl, e1, e5, h0, h3]
  simp [frameBytes]

/-- R128: what a build leaves in the buffer is the frame of the block number and the bytes read. -/
theorem readRange_eq_builtFrame {d : List Byte} (h : d.length ≤ 128) (bn : Byte) (m : Memory) :
    (assemble bn (fillPayload d m)).readRange 0 132 = builtFrame bn d := by
  have e : ∀ n : Nat, BitVec.ofNat 8 (n % 256) = BitVec.ofNat 8 n := fun n => by
    apply BitVec.eq_of_toNat_eq
    simp
  rw [readRange_assemble_fill h, checksumOf_padded]
  simp only [frameBytes, sequenceByte, complementByte, padded, builtFrame, checksumOf, byteSum_eq_sum, e, Config.SOH,
    Config.payloadLen, Config.PAD]
  simp [-List.reduceReplicate]

end Sys2Proof.Machine
end

