-- ==== Sys2Proof/Machine/Notation.lean ====
section
/-! DEFINITION. The notation of traces (30_encoding.md R97, decision D23): 132 `Tx` events of a frame written as one item,
and the mark of a hold. Not behaviour: a view of `trace`. -/

namespace Sys2Proof.Machine

/-- One item of a written trace. -/
inductive TraceItem where
  | srcOpenOk
  | srcOpenFail
  | srcRead (n : Nat)
  | rx (b : Byte)
  | tx (b : Byte)
  | txFrame (sequence complement checksum : Byte)  -- bytes 1, 2 and 131 of the frame
  | srcClose
  | hold (s : CtrlState)
deriving DecidableEq, Repr

/-- The bytes of the next 132 events, where all of them are `Tx` and the first is the start marker. -/
def frameAhead (es : List Event) : Option (List Byte) :=
  let bs := outboundOf (es.take Config.frameLen)
  if bs.length = Config.frameLen ∧ bs.head? = some Config.SOH then some bs else none

/-- The items of a trace; `fuel` bounds their number. -/
def itemsOf : Nat → List Event → List TraceItem
  | 0, _ => []
  | _ + 1, [] => []
  | fuel + 1, .srcOpenOk :: es => .srcOpenOk :: itemsOf fuel es
  | fuel + 1, .srcOpenFail :: es => .srcOpenFail :: itemsOf fuel es
  | fuel + 1, .srcRead d :: es => .srcRead d.length :: itemsOf fuel es
  | fuel + 1, .srcClose :: es => .srcClose :: itemsOf fuel es
  | fuel + 1, .rx b :: es => .rx b :: itemsOf fuel es
  | fuel + 1, .tx b :: es =>
    match frameAhead (.tx b :: es) with
    | some bs => .txFrame (bs.getD 1 0) (bs.getD 2 0) (bs.getD 131 0) :: itemsOf fuel (es.drop (Config.frameLen - 1))
    | none => .tx b :: itemsOf fuel es

/-- A state's trace in the notation of R97, with `HOLD(S)` where the unit is held. -/
def State.written (s : State) : List TraceItem :=
  itemsOf s.trace.length s.trace ++ if s.canAct || s.isFinal then [] else [.hold s.state]

end Sys2Proof.Machine
end

