-- ==== Sys2Proof/Tests/Slice0.lean ====
section
/-! SUPPORT. Tests of the model on the vectors of spec/95_test_vectors.md and on words written out from the spec's
encodings, and a witness for the hypotheses of every obligation that has any. Expected values come from the spec. -/

namespace Sys2Proof.Tests
set_option Elab.async false
open Sys2Proof Sys2Proof.Machine

/-! ## Helpers -/

/-- One field of a next state; none for a stop. -/
def field {α : Type} (f : State → α) : Result → Option α
  | .next t => some (f t)
  | .fault _ => none
  | .refused _ => none

/-- 128 copies of a byte. -/
def fill (b : Byte) : List Byte := List.replicate 128 b

/-- A state of a session whose source is open and whose current block holds `d`. -/
def sample (st : CtrlState) (bn : Byte) (eof : Bool) (d rx : List Byte) : State :=
  { State.reset with
    state := st, blockNumber := bn, eofFlag := eof, fileOpen := true, rawMode := true, rx := rx
    currentBlock := assemble (if st = .build then bn - 1#8 else bn) (fillPayload d []) }

/-- The frame of vector F2e: 01 02 FD, 83 8A, 126 times 00, 0D. -/
def frameF2e : List Byte := [0x01#8, 0x02#8, 0xFD#8, 0x83#8, 0x8A#8] ++ List.replicate 126 0x00#8 ++ [0x0D#8]

/-! ## Well-formedness: one ill-formed term for each check -/

theorem test_wf_ignored_ack : (Instr.ignored 0x06#8).wf = false := by decide +kernel
theorem test_wf_ignored_nak : (Instr.ignored 0x15#8).wf = false := by decide +kernel
theorem test_wf_ignored_can : (Instr.ignored 0x18#8).wf = false := by decide +kernel
theorem test_wf_block_payload : (Instr.block 1 0xFE#8 (List.replicate 127 0x00#8) 0).wf = false := by decide +kernel
theorem test_wf_block_complement : (Instr.block 1 0xFF#8 (fill 0x00#8) 0).wf = false := by decide +kernel
theorem test_wf_block_checksum : (Instr.block 1 0xFE#8 (fill 0x00#8) 1).wf = false := by decide +kernel
theorem test_wf_checksum_length : (Instr.checksum8 (List.replicate 129 0x00#8)).wf = false := by decide +kernel
theorem test_wf_emit_length : (Instr.emit [0x01#8, 0x02#8]).wf = false := by decide +kernel

/-! ## Decoding: words from R81, R88, R89, R91, R92 -/

/-- The five control byte constants are pairwise distinct, which R89 needs (R98, U16). -/
theorem test_constants_distinct :
    [Config.SOH, Config.EOT, Config.ACK, Config.NAK, Config.CAN].Nodup := by decide +kernel

theorem test_decode_ctrl_in :
    decode .awaitAck [0b00000110#8] = .instr .ack [] ∧ decode .awaitAck [0b00010101#8] = .instr .nak [] ∧
    decode .awaitAck [0b00011000#8] = .instr .can [] ∧
    decode .awaitAck [0b00000111#8] = .instr (.ignored 0x07#8) [] := by decide +kernel
theorem test_decode_eot_response : decode .sendEot [0b00010101#8] = .instr (.eotResponse 0x15#8) [] := by decide +kernel
theorem test_decode_eot : decode .outbound [0b00000100#8] = .instr .eot [] := by decide +kernel
theorem test_decode_state :
    decode .stateReg [0b000#8] = .instr .opInit [] ∧ decode .stateReg [0b001#8] = .instr .opAwaitAck [] ∧
    decode .stateReg [0b010#8] = .instr .opAdvance [] ∧ decode .stateReg [0b011#8] = .instr .opBuild [] ∧
    decode .stateReg [0b100#8] = .instr .opSend [] ∧ decode .stateReg [0b101#8] = .instr .opSendEot [] ∧
    decode .stateReg [0b110#8] = .instr .opDone [] := by decide +kernel
theorem test_decode_state_seven : decode .stateReg [0b111#8] = .rejected .stateCodeSeven := by decide +kernel
/-- The frame of F2e, and one more byte that is not the frame's. -/
theorem test_decode_block : decode .outbound (frameF2e ++ [0x04#8]) =
    .instr (.block 0x02#8 0xFD#8 (padded [0x83#8, 0x8A#8]) 0x0D#8) [0x04#8] := by decide +kernel
theorem test_decode_short_frame : decode .outbound (frameF2e.take 131) = .rejected .shortFrame := by decide +kernel
/-- The component functions have an empty encoding (R96). -/
theorem test_call_rows_have_no_word :
    encode (.checksum8 []) = none ∧ encode .buildBlock = none ∧ encode (.emit []) = none ∧
    encode .awaitByte = none := by decide +kernel

theorem test_table_word_bytes :
    decodeTableWord 8 0x06 = some .ack ∧ decodeTableWord 8 0x15 = some .nak ∧ decodeTableWord 8 0x18 = some .can ∧
    decodeTableWord 8 0x04 = some .eot ∧ decodeTableWord 8 0x43 = some (.ignored 0x43#8) := by decide +kernel
theorem test_table_word_states :
    decodeTableWord 3 4 = some .opSend ∧ decodeTableWord 8 3 = some .opBuild ∧ decodeTableWord 3 7 = none ∧
    decodeTableWord 0 0 = none := by decide +kernel
theorem test_table_word_block :
    decodeTableWord 1056 0xFE0101 = some (.block 0x01#8 0xFE#8 (fill 0x00#8) 0x00#8) := by decide +kernel

/-- The next step after reset runs a CAN, an ACK, a frame's sending. -/
theorem test_fetch_can :
    field (·.doneCause) (step (State.reset.withFetchWord 8 0x18)) = some .peerCancelled := by decide +kernel
theorem test_fetch_ack : field (·.state) (step (State.reset.withFetchWord 8 0x06)) = some .advance := by decide +kernel
theorem test_fetch_block :
    field (fun t => outboundOf t.trace) (step (State.reset.withFetchWord 1056 0xFE0101)) =
      some ([0x01#8, 0x01#8, 0xFE#8] ++ List.replicate 129 0x00#8) := by decide +kernel

/-! ## The controller's operations: vectors T1 to T24 -/

/-- T1. -/
theorem test_opInit_fail :
    field (fun t => (t.state, t.doneCause, t.rawMode, t.isFinal, t.trace))
      (exec .opInit (State.reset.withSession [] false [])) =
      some (.done, .sourceUnavailable, false, true, [.srcOpenFail]) := by decide +kernel
/-- T2, with P3's source. -/
theorem test_opInit_ok :
    field (fun t => (t.state, t.fileOpen, t.rawMode, t.eofFlag, t.bufferByte 131))
      (exec .opInit (State.reset.withSession [0x68#8, 0x65#8, 0x6C#8, 0x6C#8, 0x6F#8, 0x2C#8, 0x20#8, 0x77#8, 0x6F#8,
        0x72#8, 0x6C#8, 0x64#8, 0x0A#8] true [])) =
      some (.awaitAck, true, true, true, 0x92#8) := by decide +kernel
/-- T4: one CAN; what follows it is not read. -/
theorem test_opAwaitAck_can :
    field (fun t => (t.state, t.doneCause, t.trace, t.rx))
      (exec .opAwaitAck (sample .awaitAck 0 false [] [0x18#8, 0x06#8])) =
      some (.done, .peerCancelled, [.rx 0x18#8], [0x06#8]) := by decide +kernel
/-- T12: the neighbours of the three constants. -/
theorem test_opAwaitAck_neighbours :
    [0x07#8, 0x14#8, 0x16#8, 0x19#8, 0x05#8, 0x17#8].map (fun b =>
      field (fun t => (t.state, t.trace)) (exec .opAwaitAck (sample .awaitAck 0 false [] [b]))) =
    [0x07#8, 0x14#8, 0x16#8, 0x19#8, 0x05#8, 0x17#8].map (fun b => some (.awaitAck, [.rx b])) := by decide +kernel
/-- T14. -/
theorem test_opAdvance_eof :
    field (fun t => (t.state, t.blockNumber)) (exec .opAdvance (sample .advance 5 true [] [])) =
      some (.sendEot, 5) := by decide +kernel
/-- T16. -/
theorem test_opAdvance_wraps :
    field (fun t => (t.state, t.blockNumber)) (exec .opAdvance (sample .advance 255 false [] [])) =
      some (.build, 0) := by decide +kernel
/-- T17: the buffer as F2e. -/
theorem test_opBuild_two_bytes :
    field (fun t => (t.state, t.eofFlag, t.bufferBytes))
      (exec .opBuild { sample .build 1 false [0x11#8, 0x11#8, 0x11#8] [] with srcContent := [0x83#8, 0x8A#8] }) =
      some (.send, true, frameF2e) := by decide +kernel
/-- F2g: sequence 0x00, a full read of 0xFF, checksum 0x80, the flag stays 0. -/
theorem test_opBuild_wraps :
    field (fun t => (t.eofFlag, t.bufferByte 1, t.bufferByte 2, t.bufferByte 130, t.bufferByte 131))
      (exec .opBuild { sample .build 255 false [] [] with srcContent := fill 0xFF#8 }) =
      some (false, 0x00#8, 0xFF#8, 0xFF#8, 0x80#8) := by decide +kernel
/-- T18. -/
theorem test_opSend_frame :
    field (fun t => (t.state, outboundOf t.trace)) (exec .opSend (sample .send 1 true [0x83#8, 0x8A#8] [])) =
      some (.awaitAck, frameF2e) := by decide +kernel
/-- L5: a stall after 71 bytes; an inbound byte that waits is not read. -/
theorem test_opSend_stalls :
    field (fun t => (t.state, (outboundOf t.trace).length, t.progress, t.rx))
      (exec .opSend { sample .send 1 true [] [0x18#8] with txReady := some 71 }) =
      some (.send, 71, .sending 71, [0x18#8]) := by decide +kernel
/-- T21. -/
theorem test_opSendEot_can :
    field (fun t => (t.state, t.doneCause, t.trace)) (exec .opSendEot (sample .sendEot 0 true [] [0x18#8])) =
      some (.done, .complete, [.tx 0x04#8, .rx 0x18#8]) := by decide +kernel
/-- T22, P10. -/
theorem test_opSendEot_silent :
    field (fun t => (t.state, t.doneCause, t.trace, t.fileOpen, t.canAct))
      (exec .opSendEot (sample .sendEot 0 true [] [])) =
      some (.sendEot, .none, [.tx 0x04#8], true, false) := by decide +kernel
/-- T23. -/
theorem test_opDone_releases :
    field (fun t => (t.isFinal, t.fileOpen, t.rawMode, t.trace))
      (exec .opDone { sample .done 0 true [] [] with doneCause := .peerCancelled }) =
      some (true, false, false, [.srcClose]) := by decide +kernel
/-- T24: no step. -/
theorem test_opDone_final :
    field (fun t => (t.isFinal, t.trace))
      (step { State.reset with state := .done, doneCause := .sourceUnavailable }) = some (true, []) := by decide +kernel

/-! ## Component functions: vectors K, F2, L -/

/-- K2: the largest sum. -/
theorem test_checksum8_max : field (·.returned) (exec (.checksum8 (fill 0xFF#8)) State.reset) = some 0x80#8 := by decide +kernel
/-- K5: the ramp 0x00 to 0x7F. -/
theorem test_checksum8_ramp :
    field (·.returned) (exec (.checksum8 ((List.range 128).map (BitVec.ofNat 8))) State.reset) = some 0xC0#8 := by decide +kernel
/-- F2c: 127 times 09, one pad byte, checksum 0x77, the flag set. -/
theorem test_buildBlock_one_pad :
    field (fun t => (t.eofFlag, t.bufferByte 129, t.bufferByte 130, t.bufferByte 131))
      (exec .buildBlock { sample .build 0 false [] [] with srcContent := List.replicate 127 0x09#8 }) =
      some (true, 0x09#8, 0x00#8, 0x77#8) := by decide +kernel
/-- F2h after a block that began and ended with 0x11: nothing of the old payload survives. -/
theorem test_buildBlock_clears :
    field (·.bufferBytes) (exec .buildBlock (sample .build 1 false (0x11#8 :: (List.replicate 126 0x00#8 ++ [0x11#8])) [])) =
      some ([0x01#8, 0x02#8, 0xFD#8] ++ List.replicate 129 0x00#8) := by decide +kernel
/-- L1. -/
theorem test_emit_eot : field (·.trace) (exec (.emit [0x04#8]) State.reset) = some [.tx 0x04#8] := by decide +kernel
/-- L3. -/
theorem test_awaitByte_oldest :
    field (fun t => (t.returned, t.rx)) (exec .awaitByte { State.reset with rx := [0x15#8, 0x06#8] }) =
      some (0x15#8, [0x06#8]) := by decide +kernel
/-- L4. -/
theorem test_awaitByte_waits : field (·.trace) (exec .awaitByte State.reset) = some [] := by decide +kernel

/-! ## Decode and encode rows -/

/-- T5 to T7 once the byte is consumed (R89, R90). -/
theorem test_ack : field (·.state) (exec .ack (sample .awaitAck 0 false [] [])) = some .advance := by decide +kernel
theorem test_nak : field (·.state) (exec .nak (sample .awaitAck 0 false [] [])) = some .send := by decide +kernel
theorem test_can :
    field (fun t => (t.state, t.doneCause)) (exec .can (sample .awaitAck 0 false [] [])) =
      some (.done, .peerCancelled) := by decide +kernel
theorem test_ignored : field (·.state) (exec (.ignored 0x43#8) (sample .awaitAck 0 false [] [])) = some .awaitAck := by
  decide +kernel
/-- T20: a NAK as the answer to the EOT. -/
theorem test_eotResponse :
    field (fun t => (t.state, t.doneCause)) (exec (.eotResponse 0x15#8) (sample .sendEot 0 true [] [])) =
      some (.done, .complete) := by decide +kernel
theorem test_eot : field (·.trace) (exec .eot (sample .sendEot 0 true [] [])) = some [.tx 0x04#8] := by decide +kernel
theorem test_block :
    field (fun t => (t.state, outboundOf t.trace))
      (exec (.block 0x02#8 0xFD#8 (padded [0x83#8, 0x8A#8]) 0x0D#8) (sample .send 1 true [] [])) =
      some (.awaitAck, frameF2e) := by decide +kernel

/-- R97: a frame's 132 events are written as one item, the hold as another. -/
theorem test_written_frame :
    field State.written (exec .opSend (sample .send 1 true [0x83#8, 0x8A#8] [])) =
      some [.txFrame 0x02#8 0xFD#8 0x0D#8, .hold .awaitAck] := by decide +kernel

/-! ## Witnesses: states and operands that meet the hypotheses of each obligation -/

/-- The sampled states of a running session are sound. -/
theorem sample_inv (st : CtrlState) (bn : Byte) (eof : Bool) (d rx : List Byte) (hd : d.length ≤ 128)
    (h : st = .awaitAck ∨ st = .advance ∨ st = .send ∨ (st = .build ∧ eof = false) ∨ (st = .sendEot ∧ eof = true)) :
    (sample st bn eof d rx).Inv := by
  have hw := fun b => wf_assemble_fill hd b (m := []) rfl
  have hc := toNat_add_complementByte
  have hc1 : ∀ q : Byte, (q.toNat + 1) % 256 + (complementByte (q + 1#8)).toNat = 255 := fun q => by
    simpa using hc (q + 1#8)
  rcases h with rfl | rfl | rfl | ⟨rfl, rfl⟩ | ⟨rfl, rfl⟩ <;>
    constructor <;> simp [sample, State.reset, hw, read_assemble, readRange_payload_assemble, hc, hc1, sequenceByte]

/-- A sound state in `DONE` that has not released yet, and the one after the release. -/
theorem done_inv :
    ({ sample .done 0 true [] [] with doneCause := .complete } : State).Inv ∧
    ({ sample .done 0 true [] [] with doneCause := .complete, fileOpen := false, rawMode := false } : State).Inv := by
  have hw := fun b => wf_assemble_fill (d := []) (by simp) b (m := []) rfl
  constructor <;> constructor <;>
    simp [sample, State.reset, hw, read_assemble, readRange_payload_assemble, sequenceByte, complementByte, CtrlState.running]

theorem reset_inv : State.reset.Inv := by
  constructor <;> simp [State.reset, CtrlState.running, Memory.wf, Memory.wfFrom]

/-- `HostResetOnlyAtEnds`: final, at the start, and in between. -/
theorem witness_hostReset :
    ({ State.reset with state := .done } : State).isFinal = true ∧ State.reset.atStart = true ∧
    (sample .send 0 true [] []).isFinal = false ∧ (sample .send 0 true [] []).atStart = false := by decide +kernel
/-- `DecodeOfEncode`, `WellFormedRowsRun`: a frame that holds every control value. -/
theorem witness_decodeOfEncode :
    (Instr.block 0x00#8 0xFF#8 (padded [0x01#8, 0x04#8, 0x06#8, 0x15#8, 0x18#8]) 0x38#8).wf = true ∧
    (encode (.block 0x00#8 0xFF#8 (padded [0x01#8, 0x04#8, 0x06#8, 0x15#8, 0x18#8]) 0x38#8)).isSome = true := by
  decide +kernel
/-- `EncodeOfDecode`. -/
theorem witness_encodeOfDecode : (decode .outbound (frameF2e ++ frameF2e)).instr?.isSome = true := by decide +kernel
theorem isFrame_F2e : IsFrame frameF2e := ⟨0x02#8, padded [0x83#8, 0x8A#8], by decide +kernel, by decide +kernel⟩
/-- `ReaderCutsOutboundStream`: the empty stream, and a frame sent twice. -/
theorem witness_readerCuts : (∀ f ∈ ([] : List (List Byte)), IsFrame f) ∧ ∀ f ∈ [frameF2e, frameF2e], IsFrame f := by
  refine ⟨by simp, fun f hf => ?_⟩
  simp only [List.mem_cons, List.not_mem_nil, or_false, or_self] at hf
  exact hf ▸ isFrame_F2e
/-- `StepRunsStateOperation`: in `DONE` before the release, and elsewhere. -/
theorem witness_stepRuns :
    (sample .done 0 true [] []).isFinal = false ∧ State.reset.state ≠ .done := by decide +kernel
/-- `StepRunsControlByte`, `AwaitAckActsOnByte`: one byte for each branch. -/
theorem witness_controlByte :
    ∀ c ∈ [0x18#8, 0x06#8, 0x15#8, 0x00#8, 0xFF#8],
      (sample .awaitAck 0 false [] [c]).state = .awaitAck ∧ (sample .awaitAck 0 false [] [c]).rx = c :: [] :=
  fun _ _ => ⟨rfl, rfl⟩
/-- `StepRunsFrameInBuffer`. -/
theorem witness_frameInBuffer :
    (sample .send 1 true [0x83#8, 0x8A#8] []).state = .send ∧ (padded [0x83#8, 0x8A#8]).length = 128 ∧
    decode .outbound (sample .send 1 true [0x83#8, 0x8A#8] []).bufferBytes =
      .instr (.block 0x02#8 0xFD#8 (padded [0x83#8, 0x8A#8]) 0x0D#8) [] := by decide +kernel
/-- `StepRunsEotAndAnswer`, `SendEotCompletes`, `SendEotHoldsUntilAnswer`: before the EOT with and without a byte, and
after it. -/
theorem witness_sendEot :
    ((sample .sendEot 0 true [] []).state = .sendEot ∧ (sample .sendEot 0 true [] []).progress ≠ .eotSent ∧
      (sample .sendEot 0 true [] []).txReady ≠ some 0 ∧ (sample .sendEot 0 true [] []).rx = [] ∧
      (sample .sendEot 0 true [] []).rxDepth = none) ∧
    (sample .sendEot 0 true [] [0x00#8]).rx = 0x00#8 :: [] ∧
    ({ sample .sendEot 0 true [] [0x06#8] with progress := .eotSent } : State).progress = .eotSent := by decide +kernel
/-- `ChecksumRowSumsBytes`, `BlockRowSendsLayout`: the right length, one less, one more. -/
theorem witness_payloadLength :
    (fill 0xFF#8).length = 128 ∧ (List.replicate 127 0xFF#8).length ≠ 128 ∧ (List.replicate 129 0xFF#8).length ≠ 128 := by
  decide +kernel
/-- `ChecksumLawsHold`: a permutation, and two bytes that differ. -/
theorem witness_checksumLaws : [0x80#8, 0xFF#8].Perm [0xFF#8, 0x80#8] ∧ (0x00#8 : Byte) ≠ 0x80#8 :=
  ⟨List.Perm.swap _ _ _, by decide⟩
/-- `BuildBlockLeavesFrame`: no data, 127 bytes, 128 bytes, and a short answer with data left. -/
theorem witness_buildBlock :
    (sample .build 255 false [] []).fileOpen = true ∧ (sample .build 255 false [] []).srcReady ≠ some 0 ∧
    (([] : List Byte).drop 0).take (min 128 (([] : List Nat).headD 128)) = [] ∧
    (((List.replicate 127 0x09#8).drop 0).take (min 128 (([] : List Nat).headD 128))).length = 127 ∧
    (((List.replicate 300 0x09#8).drop 0).take (min 128 (([] : List Nat).headD 128))).length = 128 ∧
    (((List.replicate 300 0x09#8).drop 128).take (min 128 ([5].headD 128))).length = 5 := by decide +kernel
/-- `BuildNeedsOpenSource`. -/
theorem witness_buildNeedsOpen : State.reset.fileOpen = false := rfl
/-- `PadBytesAreZero`, `BuiltFramesCheckOut`: a build that read one byte, with the block number about to wrap. -/
theorem witness_built :
    ∃ t, exec .buildBlock { sample .build 255 false [] [] with srcContent := [0x18#8] } = .next t ∧
      t.trace = (sample .build 255 false [] []).trace ++ [.srcRead [0x18#8]] := ⟨_, rfl, rfl⟩
/-- `EofPoliciesAgreeOffMultiples`: an empty source, one byte past a multiple, one before. -/
theorem witness_eofPolicies :
    ((0 % 128 ≠ 0 ∨ 0 = 0) ∧ 0 % 128 = 0 ∧ 0 ≤ 0 ∧ 0 = min 128 (0 - 0)) ∧
    ((129 % 128 ≠ 0 ∨ 129 = 0) ∧ 128 % 128 = 0 ∧ 128 ≤ 129 ∧ 1 = min 128 (129 - 128)) ∧
    ((127 % 128 ≠ 0 ∨ 127 = 0) ∧ 0 % 128 = 0 ∧ 0 ≤ 127 ∧ 127 = min 128 (127 - 0)) := by decide
/-- `EmitSendsInOrder`, `SendEmitsWholeBuffer`: just enough room, one too few, none, and a frame half sent. -/
theorem witness_emit :
    0 = Progress.idle.sentSoFar ∧ 71 = (Progress.sending 71).sentSoFar ∧
    (∀ r, some 132 = some r → 132 - 0 ≤ r) ∧ (∀ r, some 61 = some r → 132 - 71 ≤ r) ∧
    (∀ r, (none : Option Nat) = some r → 132 - 0 ≤ r) ∧
    ((some 131 : Option Nat) = some 131 ∧ 131 < frameF2e.length - 0) ∧
    ((some 0 : Option Nat) = some 0 ∧ 0 < [0x04#8].length - 0) := by
  refine ⟨rfl, rfl, ?_, ?_, ?_, ⟨rfl, by decide +kernel⟩, rfl, by decide⟩ <;> intro r h <;> cases h <;> decide
/-- `AwaitByteTakesOldest`, `EotRowSendsOneByte`. -/
theorem witness_ports :
    (sample .awaitAck 0 false [] [0x15#8, 0x06#8]).rx = 0x15#8 :: [0x06#8] ∧ State.reset.rx = [] ∧
    State.reset.txReady ≠ some 0 ∧ ({ State.reset with txReady := some 1 } : State).txReady ≠ some 0 := by decide +kernel
/-- `StalledFrameGoesOn`: a stall before the first byte and one before the last. -/
theorem witness_stalled :
    (∀ r ∈ [0, 131], (sample .send 1 true [] []).state = .send ∧ (sample .send 1 true [] []).progress = .idle ∧
      ({ sample .send 1 true [] [] with txReady := some r } : State).txReady = some r ∧ r < 132) := by decide +kernel
/-- `InitBuildsFirstBlock`, `OpenFailureEndsSession`, `WaitInInitLosesNothing`: at reset, with the source's answers at
their bounds. -/
theorem witness_init :
    State.reset.progress ≠ .opened ∧ State.reset.srcOpens = true ∧ State.reset.srcReady ≠ some 0 ∧
    State.reset.srcReady ≠ some 1 ∧
    (let s : State := { State.reset with srcReady := some 2 }
     s.srcReady ≠ some 0 ∧ s.srcReady ≠ some 1) ∧
    (let s : State := { State.reset with srcOpens := false, srcReady := some 1 }
     s.progress ≠ .opened ∧ s.srcOpens = false ∧ s.srcReady ≠ some 0 ∧ s.fileOpen = false ∧ s.rawMode = false) ∧
    (let s : State := { State.reset with srcReady := some 1 }
     s.state = .init ∧ s.progress = .idle ∧ s.srcOpens = true ∧ s.srcReady = some 1) := by decide +kernel
/-- `AdvanceCountsOrEnds`: both values of the flag; the counter at its top. -/
theorem witness_advance :
    (sample .advance 255 true [] []).eofFlag = true ∧ (sample .advance 255 false [] []).eofFlag = false := by
  decide +kernel
/-- `FinalStateStays`. -/
theorem witness_final :
    ({ State.reset with state := .done, doneCause := .complete } : State).isFinal = true ∧
    (sample .done 0 true [] []).state = .done := by decide +kernel
/-- The statements about a step from a sound state: it takes a step in each state, in `DONE` before and after the
release. -/
theorem witness_soundStep :
    (∃ s t : State, s.Inv ∧ s.state = .init ∧ step s = .next t) ∧
    (∃ s t : State, s.Inv ∧ s.state = .awaitAck ∧ step s = .next t) ∧
    (∃ s t : State, s.Inv ∧ s.state = .advance ∧ step s = .next t) ∧
    (∃ s t : State, s.Inv ∧ s.state = .build ∧ step s = .next t) ∧
    (∃ s t : State, s.Inv ∧ s.state = .send ∧ step s = .next t) ∧
    (∃ s t : State, s.Inv ∧ s.state = .sendEot ∧ step s = .next t) ∧
    (∃ s t : State, s.Inv ∧ s.state = .done ∧ s.isFinal = false ∧ step s = .next t) ∧
    (∃ s t : State, s.Inv ∧ s.isFinal = true ∧ step s = .next t) :=
  ⟨⟨State.reset, _, reset_inv, rfl, rfl⟩,
   ⟨sample .awaitAck 0 false [] [0x06#8], _, sample_inv _ _ _ _ _ (by simp) (by simp), rfl, rfl⟩,
   ⟨sample .advance 255 false [] [], _, sample_inv _ _ _ _ _ (by simp) (by simp), rfl, rfl⟩,
   ⟨sample .build 1 false [] [], _, sample_inv _ _ _ _ _ (by simp) (by simp), rfl, rfl⟩,
   ⟨sample .send 0 true [] [], _, sample_inv _ _ _ _ _ (by simp) (by simp), rfl, rfl⟩,
   ⟨sample .sendEot 0 true [] [0x15#8], _, sample_inv _ _ _ _ _ (by simp) (by simp), rfl, rfl⟩,
   ⟨_, _, done_inv.1, rfl, rfl, rfl⟩, ⟨_, _, done_inv.2, rfl, rfl⟩⟩
/-- `StepKeepsOutboundShape`, `StepKeepsCounter`, `StepKeepsAckCount`, `StepKeepsReadPosition`, `StepKeepsTraceShape`,
`InputKeepsInvariant`: the extra hypotheses hold with the invariant at reset. -/
theorem witness_resetShapes :
    State.reset.Inv ∧ State.reset.OutboundShape ∧ State.reset.CounterCountsReads ∧ State.reset.AcksCountBlocks ∧
    State.reset.ReadsAreFull ∧ State.reset.TraceSoFar :=
  ⟨reset_inv, ⟨[], by simp, rfl⟩, by simp [State.CounterCountsReads, State.reset]; rfl,
   by simp [State.AcksCountBlocks, State.reset]; rfl,
   by simp [State.ReadsAreFull, State.reset]; rfl, rfl⟩
/-- `UnitMovesExactlyWhenItCan`: a unit that can act and one that is held. -/
theorem witness_canAct :
    (sample .awaitAck 0 false [] [0x06#8]).canAct = true ∧ (sample .awaitAck 0 false [] []).canAct = false := by
  decide +kernel
/-- `EachRowWritesOnlyItsRegisters`, `PortsUsedOnlyWhere` (see also `witness_built`, `witness_soundStep`). -/
theorem witness_next :
    (∃ t, exec .opDone State.reset = .next t) ∧ ∃ t, exec .awaitByte { State.reset with rx := [0x15#8] } = .next t :=
  ⟨⟨_, rfl⟩, ⟨_, rfl⟩⟩
/-- `CompleteTracesHaveShape`: a failed open, a CAN before any frame, and a session that completes (vector E7). -/
theorem witness_complete :
    field State.isFinal (runInputs [.idle] (State.reset.withSession [] false [])) = some true ∧
    field (fun t => (t.isFinal, t.trace))
      (runInputs [.idle, .idle, .idle] (State.reset.withSession [] true [0x18#8])) =
      some (true, [.srcOpenOk, .srcRead [], .rx 0x18#8, .srcClose]) ∧
    field (fun t => (t.isFinal, t.doneCause, t.trace))
      (runInputs [.idle, .idle, .idle, .idle, .idle] (State.reset.withSession [] true [0x06#8, 0x06#8])) =
      some (true, .complete, [.srcOpenOk, .srcRead [], .rx 0x06#8, .tx 0x04#8, .rx 0x06#8, .srcClose]) := by
  decide +kernel
/-- `RejectionsResendSameFrame`: no rejection, and three. -/
theorem witness_rejections :
    (let s := sample .awaitAck 0 false [] []
     s.state = .awaitAck ∧ s.progress = .idle ∧ s.txReady = none ∧ s.rx = List.replicate 0 0x15#8 ++ []) ∧
    (let s := sample .awaitAck 0 false [] [0x15#8, 0x15#8, 0x15#8, 0x06#8]
     s.state = .awaitAck ∧ s.progress = .idle ∧ s.txReady = none ∧ s.rx = List.replicate 3 0x15#8 ++ [0x06#8]) := by
  decide +kernel
/-- `CancelEndsSession`, `AckAdvancesUnsentBlock`, and `AckRoundsFollowTheRules`, whose ending also has an answer waiting. -/
theorem witness_cancel_ack :
    (let s := sample .awaitAck 0 false [] [0x18#8]
     s.state = .awaitAck ∧ s.fileOpen = true ∧ s.rx = 0x18#8 :: []) ∧
    (∀ e ∈ [false, true], let s := sample .awaitAck 255 e [] [0x06#8]
     s.state = .awaitAck ∧ s.fileOpen = true ∧ s.txReady = none ∧ s.srcReady = none ∧ s.rx = 0x06#8 :: [] ∧
     s.eofFlag = e) ∧
    (let s := sample .awaitAck 255 true [] [0x06#8, 0x15#8]
     s.state = .awaitAck ∧ s.fileOpen = true ∧ s.txReady = none ∧ s.srcReady = none ∧ s.rx = 0x06#8 :: [0x15#8] ∧
     s.eofFlag = true ∧ [0x15#8] = 0x15#8 :: ([] : List Byte)) := by decide +kernel

end Sys2Proof.Tests
end

section
/-! SUPPORT. What an input of the environment can change: the unread inbound bytes and the readiness of the channel and of
the source. No invariant reads any of the three (00_scope.md R8, 10_state.md R35). -/

namespace Sys2Proof.Machine

/-- The state with other unread bytes and other readiness of the channel and of the source; the unit's registers, the
source's position and the trace are untouched. -/
def State.withPorts (rx : List Byte) (tx src : Option Nat) (s : State) : State :=
  { s with rx := rx, txReady := tx, srcReady := src }

/-- R8: all an input can do. -/
theorem receive_eq_withPorts (e : Input) (s : State) : ∃ rx tx src, s.receive e = s.withPorts rx tx src := by
  cases e with
  | idle => exact ⟨s.rx, s.txReady, s.srcReady, rfl⟩
  | peerSends b => exact ⟨rxAfter s.rxDepth s.rx b, s.txReady, s.srcReady, rfl⟩
  | channelRoom r => exact ⟨s.rx, r, s.srcReady, rfl⟩
  | sourceReady r => exact ⟨s.rx, s.txReady, r, rfl⟩

section
variable (rx : List Byte) (tx src : Option Nat) (s : State)

theorem State.Inv.withPorts {s : State} (h : s.Inv) : (s.withPorts rx tx src).Inv :=
  { h with }

@[simp] theorem outboundShape_withPorts : (s.withPorts rx tx src).OutboundShape ↔ s.OutboundShape := Iff.rfl
@[simp] theorem counterCountsReads_withPorts :
    (s.withPorts rx tx src).CounterCountsReads ↔ s.CounterCountsReads := Iff.rfl
@[simp] theorem acksCountBlocks_withPorts : (s.withPorts rx tx src).AcksCountBlocks ↔ s.AcksCountBlocks := Iff.rfl
@[simp] theorem readsAreFull_withPorts : (s.withPorts rx tx src).ReadsAreFull ↔ s.ReadsAreFull := Iff.rfl
@[simp] theorem traceSoFar_withPorts : (s.withPorts rx tx src).TraceSoFar ↔ s.TraceSoFar := Iff.rfl

end

/-- Settles O47: an input changes only what the ports hold (`receive_eq_withPorts`), which no invariant reads. -/
theorem inputKeepsInvariant : Obligations.InputKeepsInvariant := by
  intro s e h
  obtain ⟨rx, tx, src, hs⟩ := receive_eq_withPorts e s
  rw [hs]
  exact ⟨h.withPorts rx tx src, (outboundShape_withPorts rx tx src s).2, (counterCountsReads_withPorts rx tx src s).2,
    (acksCountBlocks_withPorts rx tx src s).2, (readsAreFull_withPorts rx tx src s).2,
    (traceSoFar_withPorts rx tx src s).2⟩

end Sys2Proof.Machine
end

section
/-! SUPPORT. One lemma per field of the state a source's answer leaves (`afterOpen`, `afterRead`). -/

namespace Sys2Proof.Machine
variable (r : Option Nat) (s : State)

@[simp] theorem afterOpen_state : (afterOpen r s).state = s.state := by simp [afterOpen]
@[simp] theorem afterOpen_blockNumber : (afterOpen r s).blockNumber = s.blockNumber := by simp [afterOpen]
@[simp] theorem afterOpen_eofFlag : (afterOpen r s).eofFlag = s.eofFlag := by simp [afterOpen]
@[simp] theorem afterOpen_currentBlock : (afterOpen r s).currentBlock = s.currentBlock := by simp [afterOpen]
@[simp] theorem afterOpen_fileOpen : (afterOpen r s).fileOpen = true := by simp [afterOpen]
@[simp] theorem afterOpen_rawMode : (afterOpen r s).rawMode = s.rawMode := by simp [afterOpen]
@[simp] theorem afterOpen_doneCause : (afterOpen r s).doneCause = s.doneCause := by simp [afterOpen]
@[simp] theorem afterOpen_progress : (afterOpen r s).progress = .opened := by simp [afterOpen]
@[simp] theorem afterOpen_returned : (afterOpen r s).returned = s.returned := by simp [afterOpen]
@[simp] theorem afterOpen_srcContent : (afterOpen r s).srcContent = s.srcContent := by simp [afterOpen]
@[simp] theorem afterOpen_srcPos : (afterOpen r s).srcPos = 0 := by simp [afterOpen]
@[simp] theorem afterOpen_srcOpens : (afterOpen r s).srcOpens = s.srcOpens := by simp [afterOpen]
@[simp] theorem afterOpen_rx : (afterOpen r s).rx = s.rx := by simp [afterOpen]
@[simp] theorem afterOpen_rxDepth : (afterOpen r s).rxDepth = s.rxDepth := by simp [afterOpen]
@[simp] theorem afterOpen_trace : (afterOpen r s).trace = s.trace ++ [.srcOpenOk] := by simp [afterOpen]

@[simp] theorem afterRead_state : (afterRead r s).state = s.state := by simp [afterRead]
@[simp] theorem afterRead_blockNumber : (afterRead r s).blockNumber = s.blockNumber := by simp [afterRead]
@[simp] theorem afterRead_eofFlag : (afterRead r s).eofFlag = s.eofFlag := by simp [afterRead]
@[simp] theorem afterRead_currentBlock : (afterRead r s).currentBlock = s.currentBlock := by simp [afterRead]
@[simp] theorem afterRead_fileOpen : (afterRead r s).fileOpen = s.fileOpen := by simp [afterRead]
@[simp] theorem afterRead_rawMode : (afterRead r s).rawMode = s.rawMode := by simp [afterRead]
@[simp] theorem afterRead_doneCause : (afterRead r s).doneCause = s.doneCause := by simp [afterRead]
@[simp] theorem afterRead_progress : (afterRead r s).progress = s.progress := by simp [afterRead]
@[simp] theorem afterRead_returned : (afterRead r s).returned = s.returned := by simp [afterRead]
@[simp] theorem afterRead_srcContent : (afterRead r s).srcContent = s.srcContent := by simp [afterRead]
@[simp] theorem afterRead_srcPos : (afterRead r s).srcPos = s.srcPos + (srcAnswer s).length := by simp [afterRead]
@[simp] theorem afterRead_srcOpens : (afterRead r s).srcOpens = s.srcOpens := by simp [afterRead]
@[simp] theorem afterRead_rx : (afterRead r s).rx = s.rx := by simp [afterRead]
@[simp] theorem afterRead_rxDepth : (afterRead r s).rxDepth = s.rxDepth := by simp [afterRead]
@[simp] theorem afterRead_trace : (afterRead r s).trace = s.trace ++ [.srcRead (srcAnswer s)] := by simp [afterRead]

end Sys2Proof.Machine
end

section
/-! SUPPORT. What the rows `OP_ADVANCE`, `BUILD_BLOCK`, `EOT` and `AWAIT_BYTE` can do; for the other rows see Laws/Step. -/

namespace Sys2Proof.Machine

/-- A result has one next state. -/
theorem next_unique {r : Result} {t t' : State} (e : r = .next t') (h : r = .next t) : t' = t :=
  Host.Outcome.next.inj (e.symm.trans h)

/-- Everything `OP_ADVANCE` can do. -/
theorem execOpAdvance_cases (s : State) :
    (s.eofFlag = true ∧ execOpAdvance s = .next (s.goto .sendEot)) ∨
    (s.eofFlag = false ∧ execOpAdvance s = .next ((s.setBlockNumber (s.blockNumber + 1#8)).goto .build)) := by
  unfold execOpAdvance
  cases he : s.eofFlag with
  | true => exact .inl ⟨rfl, rfl⟩
  | false => exact .inr ⟨rfl, rfl⟩

/-- Everything the row `BUILD_BLOCK` can do. -/
theorem execBuildBlock_cases (s : State) :
    (s.fileOpen = false ∧ execBuildBlock s = .fault .sourceNotOpen) ∨
    (s.fileOpen = true ∧ s.srcReady = some 0 ∧ execBuildBlock s = .next s) ∨
    (∃ r, s.fileOpen = true ∧ spend s.srcReady = some r ∧
      execBuildBlock s = .next (buildFrom (srcAnswer s) (afterRead r s))) := by
  unfold execBuildBlock
  cases hf : s.fileOpen with
  | false => exact .inl ⟨rfl, rfl⟩
  | true =>
    right
    rcases buildBlock_cases s with ⟨h, e⟩ | ⟨r, h, e⟩
    · exact .inl ⟨rfl, h, by simp [e]⟩
    · exact .inr ⟨r, rfl, h, by simp [e]⟩

/-- Everything the row `EOT` can do. -/
theorem execEot_cases (s : State) :
    (s.txReady = some 0 ∧ execEot s = .next s) ∨ (s.txReady ≠ some 0 ∧ execEot s = .next (afterEot s)) := by
  unfold execEot sendEotByte afterEot
  by_cases ht : s.txReady = some 0
  · exact .inl ⟨ht, by simp [State.txTakes, ht]⟩
  · exact .inr ⟨ht, by simp [State.txTakes, ht]⟩

/-- Everything the row `AWAIT_BYTE` can do. -/
theorem execAwaitByte_cases (s : State) :
    (s.rx = [] ∧ execAwaitByte s = .next s) ∨
    (∃ b rest, s.rx = b :: rest ∧ execAwaitByte s = .next (((s.setRx rest).log [.rx b]).setReturned b)) := by
  unfold execAwaitByte
  rcases rxByte_cases s with ⟨h, e⟩ | ⟨b, rest, h, e⟩
  · exact .inl ⟨h, by rw [e]⟩
  · exact .inr ⟨b, rest, h, by rw [e]⟩

end Sys2Proof.Machine
end
section
/-! SUPPORT. What the sound-state invariant says in each part of a session: in `INIT`, in a running session, in `DONE`
(10_state.md R35). Its clauses are stated for all states at once; a proof about one operation needs those of its state. -/

namespace Sys2Proof.Machine

/-- R35 (a), R51: a canonical buffer that holds a frame with sequence byte `q`. -/
structure Memory.HoldsFrame (q : Byte) (m : Memory) : Prop where
  wf : m.wf = true
  marker : m.read 0 = Config.SOH
  sequence : m.read 1 = q
  complement : (m.read 1).toNat + (m.read 2).toNat = 255
  checksum : m.read 131 = checksumOf (m.readRange 3 128)

/-- R128: a build leaves the frame of the block number in the buffer, whatever stood there. -/
theorem holdsFrame_assemble_fill {d : List Byte} (hd : d.length ≤ 128) (bn : Byte) {m : Memory} (w : m.wf = true) :
    (assemble bn (fillPayload d m)).HoldsFrame (bn + 1#8) where
  wf := wf_assemble_fill hd bn w
  marker := read_assemble bn _ 0
  sequence := read_assemble bn _ 1
  complement := by
    rw [read_assemble, read_assemble]
    exact toNat_add_complementByte (sequenceByte bn)
  checksum := by
    rw [readRange_payload_assemble]
    exact read_assemble bn _ 131

/-- The sequence byte of the frame that stands in the buffer: in `BUILD` the counter is already one ahead of it (R22). -/
def State.heldSequence (s : State) : Byte := if s.state = .build then s.blockNumber else s.blockNumber + 1#8

/-- The mark of a half-done operation stands only in that operation's state, and a frame half sent has sent some of its
bytes and not all (log entry 2). -/
def Progress.FitsIn (st : CtrlState) : Progress → Prop
  | .idle => True
  | .opened => st = .init
  | .sending k => st = .send ∧ 0 < k ∧ k < 132
  | .eotSent => st = .sendEot

/-- The invariant in `INIT` (R34, R151). -/
structure State.InvInit (s : State) : Prop where
  bufferWf : s.currentBlock.wf = true
  openIffOpened : s.fileOpen = true ↔ s.progress = .opened
  rawLow : s.rawMode = false
  noCause : s.doneCause = .none
  counterZero : s.blockNumber = 0#8
  eofLow : s.eofFlag = false
  mark : s.progress.FitsIn .init

/-- The invariant of a running session (R35). -/
structure State.InvRunning (s : State) : Prop where
  frame : s.currentBlock.HoldsFrame s.heldSequence
  isOpen : s.fileOpen = true
  isRaw : s.rawMode = true
  noCause : s.doneCause = .none
  eofAtEot : s.state = .sendEot → s.eofFlag = true
  noBuildAfterEof : s.state = .build → s.eofFlag = false
  mark : s.progress.FitsIn s.state

/-- The invariant in `DONE` (R35, R159, R181). -/
structure State.InvDone (s : State) : Prop where
  bufferWf : s.currentBlock.wf = true
  frame : s.doneCause ≠ .sourceUnavailable → s.currentBlock.HoldsFrame (s.blockNumber + 1#8)
  hasCause : s.doneCause ≠ .none
  rawFollowsOpen : s.rawMode = s.fileOpen
  nothingOpenOnFailure : s.doneCause = .sourceUnavailable → s.fileOpen = false
  eofAtComplete : s.doneCause = .complete → s.eofFlag = true
  whole : s.progress = .idle

theorem CtrlState.running_iff {st : CtrlState} : st.running = true ↔ st ≠ .init ∧ st ≠ .done := by
  cases st <;> simp [CtrlState.running]

theorem State.Inv.mark {s : State} (h : s.Inv) : s.progress.FitsIn s.state := by
  cases hp : s.progress with
  | idle => trivial
  | opened => exact h.openedInInit hp
  | sending k => exact h.sendingInSend k hp
  | eotSent => exact h.eotSentInSendEot hp

theorem State.Inv.init {s : State} (h : s.Inv) (hs : s.state = .init) : s.InvInit where
  bufferWf := h.bufferWf
  openIffOpened := h.openInInit hs
  rawLow := h.rawLowInInit hs
  noCause := h.causeIffDone.2 (by simp [hs])
  counterZero := (h.freshInInit hs).1
  eofLow := (h.freshInInit hs).2
  mark := hs ▸ h.mark

theorem State.Inv.running {s : State} {st : CtrlState} (h : s.Inv) (hs : s.state = st) (hr : st.running = true) :
    s.InvRunning := by
  subst hs
  obtain ⟨hi, hd⟩ := CtrlState.running_iff.1 hr
  have hn : s.doneCause = .none := h.causeIffDone.2 hd
  have hu : s.doneCause ≠ .sourceUnavailable := by simp [hn]
  have hf : s.fileOpen = true := h.openWhileRunning hr
  have hp : s.progress ≠ .opened := fun hp => hi (h.openedInInit hp)
  exact {
    frame := ⟨h.bufferWf, h.startMarker hi hu, h.sequence hi hu, h.complement hi hu, h.checksum hi hu⟩
    isOpen := hf
    isRaw := (h.rawFollowsOpen hp).trans hf
    noCause := hn
    eofAtEot := h.eofAtEot
    noBuildAfterEof := h.noBuildAfterEof
    mark := h.mark }

theorem State.Inv.done {s : State} (h : s.Inv) (hs : s.state = .done) : s.InvDone := by
  have hi : s.state ≠ .init := by simp [hs]
  have hm := h.mark
  have hw : s.progress = .idle := by
    cases hp : s.progress <;> simp [hp, hs, Progress.FitsIn] at hm ⊢
  exact {
    bufferWf := h.bufferWf
    frame := fun hu => ⟨h.bufferWf, h.startMarker hi hu, by simpa [hs] using h.sequence hi hu, h.complement hi hu,
      h.checksum hi hu⟩
    hasCause := fun hn => h.causeIffDone.1 hn hs
    rawFollowsOpen := h.rawFollowsOpen (by simp [hw])
    nothingOpenOnFailure := h.nothingOpenOnFailure
    eofAtComplete := h.eofAtComplete
    whole := hw }

theorem State.InvInit.inv {s : State} (h : s.InvInit) (hs : s.state = .init) : s.Inv where
  bufferWf := h.bufferWf
  startMarker hi := absurd hs hi
  sequence hi := absurd hs hi
  complement hi := absurd hs hi
  checksum hi := absurd hs hi
  openWhileRunning hr := absurd hs (CtrlState.running_iff.1 hr).1
  openInInit _ := h.openIffOpened
  rawFollowsOpen hp := by rw [h.rawLow, Bool.eq_false_of_not_eq_true (mt h.openIffOpened.1 hp)]
  rawLowInInit _ := h.rawLow
  causeIffDone := by simp [h.noCause, hs]
  nothingOpenOnFailure hu := by simp [h.noCause] at hu
  eofAtEot he := by simp [hs] at he
  eofAtComplete hc := by simp [h.noCause] at hc
  noBuildAfterEof hb := by simp [hs] at hb
  freshInInit _ := ⟨h.counterZero, h.eofLow⟩
  openedInInit _ := hs
  sendingInSend k hk := by have hm := h.mark; simp [hk, Progress.FitsIn] at hm
  eotSentInSendEot he := by have hm := h.mark; simp [he, Progress.FitsIn] at hm

theorem State.InvRunning.inv {s : State} {st : CtrlState} (h : s.InvRunning) (hs : s.state = st)
    (hr : st.running = true) : s.Inv := by
  subst hs
  obtain ⟨hi, hd⟩ := CtrlState.running_iff.1 hr
  have hm := h.mark
  exact {
    bufferWf := h.frame.wf
    startMarker := fun _ _ => h.frame.marker
    sequence := fun _ _ => h.frame.sequence
    complement := fun _ _ => h.frame.complement
    checksum := fun _ _ => h.frame.checksum
    openWhileRunning := fun _ => h.isOpen
    openInInit := fun hi' => absurd hi' hi
    rawFollowsOpen := fun _ => h.isRaw.trans h.isOpen.symm
    rawLowInInit := fun hi' => absurd hi' hi
    causeIffDone := by simp [h.noCause, hd]
    nothingOpenOnFailure := fun hu => by simp [h.noCause] at hu
    eofAtEot := h.eofAtEot
    eofAtComplete := fun hc => by simp [h.noCause] at hc
    noBuildAfterEof := h.noBuildAfterEof
    freshInInit := fun hi' => absurd hi' hi
    openedInInit := fun hp => by simpa [hp, Progress.FitsIn] using hm
    sendingInSend := fun k hk => by simpa [hk, Progress.FitsIn] using hm
    eotSentInSendEot := fun he => by simpa [he, Progress.FitsIn] using hm }

theorem State.InvDone.inv {s : State} (h : s.InvDone) (hs : s.state = .done) : s.Inv where
  bufferWf := h.bufferWf
  startMarker _ hu := (h.frame hu).marker
  sequence _ hu := by simpa [hs] using (h.frame hu).sequence
  complement _ hu := (h.frame hu).complement
  checksum _ hu := (h.frame hu).checksum
  openWhileRunning hr := absurd hs (CtrlState.running_iff.1 hr).2
  openInInit hi := by simp [hs] at hi
  rawFollowsOpen _ := h.rawFollowsOpen
  rawLowInInit hi := by simp [hs] at hi
  causeIffDone := by simp [h.hasCause, hs]
  nothingOpenOnFailure := h.nothingOpenOnFailure
  eofAtEot he := by simp [hs] at he
  eofAtComplete := h.eofAtComplete
  noBuildAfterEof hb := by simp [hs] at hb
  freshInInit hi := by simp [hs] at hi
  openedInInit hp := by simp [h.whole] at hp
  sendingInSend k hk := by simp [h.whole] at hk
  eotSentInSendEot he := by simp [h.whole] at he

end Sys2Proof.Machine
end

section
/-! SUPPORT. What a step can do, said once: nothing, one act, or two acts in a row (43_controller.md R150 to R163). An act
is the part of an operation between two of the states the model can stop in; an operation that waits half way stops after
its first act (log entry 2). -/

namespace Sys2Proof.Machine

/-- The acts of the unit, each with the condition under which it happens and the state it leaves. -/
inductive Act (s : State) : State → Prop
  /-- R151, R181: the source answers the open with `fail`. -/
  | openFails {r : Option Nat} (hs : s.state = .init) (hp : s.progress ≠ .opened) (hr : spend s.srcReady = some r)
      (ho : s.srcOpens = false) : Act s (((s.setSrcReady r).log [.srcOpenFail]).enterDone .sourceUnavailable)
  /-- R151: the source answers the open with `ok`. -/
  | opens {r : Option Nat} (hs : s.state = .init) (hp : s.progress ≠ .opened) (hr : spend s.srcReady = some r)
      (ho : s.srcOpens = true) : Act s (afterOpen r s)
  /-- R151: the first block is built. -/
  | buildsFirst {r : Option Nat} (hs : s.state = .init) (hp : s.progress = .opened) (hr : spend s.srcReady = some r) :
      Act s (((buildFrom (srcAnswer s) (afterRead r s)).setRawMode true).goto .awaitAck)
  /-- R152: CAN is read. -/
  | readsCan {rest : List Byte} (hs : s.state = .awaitAck) (hr : s.rx = Config.CAN :: rest) :
      Act s (((s.setRx rest).log [.rx Config.CAN]).enterDone .peerCancelled)
  /-- R152: ACK is read. -/
  | readsAck {rest : List Byte} (hs : s.state = .awaitAck) (hr : s.rx = Config.ACK :: rest) :
      Act s (((s.setRx rest).log [.rx Config.ACK]).goto .advance)
  /-- R152: NAK is read. -/
  | readsNak {rest : List Byte} (hs : s.state = .awaitAck) (hr : s.rx = Config.NAK :: rest) :
      Act s (((s.setRx rest).log [.rx Config.NAK]).goto .send)
  /-- R152: any other byte is read. -/
  | readsOther {b : Byte} {rest : List Byte} (hs : s.state = .awaitAck) (h1 : b ≠ Config.CAN) (h2 : b ≠ Config.ACK)
      (h3 : b ≠ Config.NAK) (hr : s.rx = b :: rest) : Act s (((s.setRx rest).log [.rx b]).goto .awaitAck)
  /-- R153: the source is at its end. -/
  | ends (hs : s.state = .advance) (he : s.eofFlag = true) : Act s (s.goto .sendEot)
  /-- R153: the counter goes on. -/
  | counts (hs : s.state = .advance) (he : s.eofFlag = false) :
      Act s ((s.setBlockNumber (s.blockNumber + 1#8)).goto .build)
  /-- R154: a later block is built. -/
  | builds {r : Option Nat} (hs : s.state = .build) (hf : s.fileOpen = true) (hr : spend s.srcReady = some r) :
      Act s ((buildFrom (srcAnswer s) (afterRead r s)).goto .send)
  /-- R155: the frame, or what is left of it, is sent. -/
  | sends (hs : s.state = .send) : Act s ((s.handOver (s.bufferBytes.drop s.progress.sentSoFar)).goto .awaitAck)
  /-- R143: the channel takes `m` bytes of the frame and no more. -/
  | stalls {m : Nat} (hs : s.state = .send) (h0 : 0 < m) (hm : s.progress.sentSoFar + m < 132)
      (ht : m = channelTakes s.txReady (132 - s.progress.sentSoFar)) :
      Act s ((s.handOver ((s.bufferBytes.drop s.progress.sentSoFar).take m)).setProgress
        (.sending (s.progress.sentSoFar + m)))
  /-- R156: the EOT is sent. -/
  | sendsEot (hs : s.state = .sendEot) (hp : s.progress ≠ .eotSent) (ht : s.txReady ≠ some 0) : Act s (afterEot s)
  /-- R156: the answer to the EOT is read, whatever it is. -/
  | readsAnswer {b : Byte} {rest : List Byte} (hs : s.state = .sendEot) (hp : s.progress = .eotSent)
      (hr : s.rx = b :: rest) : Act s (((s.setRx rest).log [.rx b]).enterDone .complete)
  /-- R157: the source and the channel mode are released. -/
  | releases (hs : s.state = .done) (hf : s.isFinal = false) : Act s s.release

/-- All a step can do: the unit cannot act and nothing changes, or it does one act, or two in a row. -/
def Steps (s t : State) : Prop := (s.canAct = false ∧ t = s) ∨ Act s t ∨ ∃ u, Act s u ∧ Act u t

theorem canAct_init {s : State} (hs : s.state = .init) (hr : s.srcReady = some 0) : s.canAct = false := by
  simp [State.canAct, hs, State.srcAnswers, hr]

theorem canAct_awaitAck {s : State} (hs : s.state = .awaitAck) (hr : s.rx = []) : s.canAct = false := by
  simp [State.canAct, hs, State.rxWaiting, hr]

theorem canAct_build {s : State} (hs : s.state = .build) (hr : s.srcReady = some 0) : s.canAct = false := by
  simp [State.canAct, hs, State.srcAnswers, hr]

theorem canAct_send {s : State} (hs : s.state = .send) (ht : s.txReady = some 0) : s.canAct = false := by
  simp [State.canAct, hs, State.txTakes, ht]

theorem canAct_sendEot {s : State} (hs : s.state = .sendEot) (hp : s.progress ≠ .eotSent) (ht : s.txReady = some 0) :
    s.canAct = false := by
  simp [State.canAct, hs, hp, State.txTakes, ht]

theorem canAct_eotSent {s : State} (hs : s.state = .sendEot) (hp : s.progress = .eotSent) (hr : s.rx = []) :
    s.canAct = false := by
  simp [State.canAct, hs, hp, State.rxWaiting, hr]

theorem canAct_final {s : State} (hf : s.isFinal = true) : s.canAct = false := by
  have hs : s.state = .done := by simp_all [State.isFinal]
  simp [State.canAct, hs, hf]

theorem steps_opInit {s t : State} (hs : s.state = .init) (h : execOpInit s = .next t) : Steps s t := by
  rcases execOpInit_cases s with ⟨hp, e⟩ | ⟨_, hr, e⟩ | ⟨r, hp, hr, ho, e⟩ | ⟨r, hp, hr, ho, e⟩ <;>
    obtain rfl := next_unique e h
  · rcases initBuild_cases s with ⟨hr, e⟩ | ⟨r, hr, e⟩ <;> rw [e]
    · exact .inl ⟨canAct_init hs hr, rfl⟩
    · exact .inr (.inl (.buildsFirst hs hp hr))
  · exact .inl ⟨canAct_init hs hr, rfl⟩
  · have hu : Act s (afterOpen r s) := .opens hs hp hr ho
    rcases initBuild_cases (afterOpen r s) with ⟨_, e⟩ | ⟨r', hr', e⟩ <;> rw [e]
    · exact .inr (.inl hu)
    · exact .inr (.inr ⟨_, hu, .buildsFirst hs rfl hr'⟩)
  · exact .inr (.inl (.openFails hs hp hr ho))

theorem steps_opAwaitAck {s t : State} (hs : s.state = .awaitAck) (h : execOpAwaitAck s = .next t) : Steps s t := by
  rcases execOpAwaitAck_cases s with ⟨hr, e⟩ | ⟨rest, hr, e⟩ | ⟨rest, hr, e⟩ | ⟨rest, hr, e⟩ |
      ⟨b, rest, h1, h2, h3, hr, e⟩ <;>
    obtain rfl := next_unique e h
  · exact .inl ⟨canAct_awaitAck hs hr, rfl⟩
  · exact .inr (.inl (.readsCan hs hr))
  · exact .inr (.inl (.readsAck hs hr))
  · exact .inr (.inl (.readsNak hs hr))
  · exact .inr (.inl (.readsOther hs h1 h2 h3 hr))

theorem steps_opAdvance {s t : State} (hs : s.state = .advance) (h : execOpAdvance s = .next t) : Steps s t := by
  rcases execOpAdvance_cases s with ⟨he, e⟩ | ⟨he, e⟩ <;> obtain rfl := next_unique e h
  · exact .inr (.inl (.ends hs he))
  · exact .inr (.inl (.counts hs he))

theorem steps_opBuild {s t : State} (hs : s.state = .build) (h : execOpBuild s = .next t) : Steps s t := by
  rcases execOpBuild_cases s with ⟨_, e⟩ | ⟨_, hr, e⟩ | ⟨r, hf, hr, e⟩
  · exact absurd (e.symm.trans h) nofun
  · obtain rfl := next_unique e h
    exact .inl ⟨canAct_build hs hr, rfl⟩
  · obtain rfl := next_unique e h
    exact .inr (.inl (.builds hs hf hr))

theorem steps_opSend {s t : State} (hs : s.state = .send) (h : execOpSend s = .next t) : Steps s t := by
  have hl : s.bufferBytes.length = 132 := Memory.length_readRange _ _ _
  obtain rfl := Host.Outcome.next.inj h
  rcases sendFrame_cases s.bufferBytes s with e | ⟨m, h0, hm, ht, e⟩ | ⟨ht, _, e⟩ <;> rw [e]
  · exact .inr (.inl (.sends hs))
  · rw [hl] at hm ht
    exact .inr (.inl (.stalls hs h0 hm ht))
  · exact .inl ⟨canAct_send hs ht, rfl⟩

theorem steps_opSendEot {s t : State} (hs : s.state = .sendEot) (h : execOpSendEot s = .next t) : Steps s t := by
  rcases execOpSendEot_cases s with ⟨hp, e⟩ | ⟨hp, ht, e⟩ | ⟨hp, ht, e⟩
  · rw [e] at h
    rcases eotAnswer_cases s with ⟨hr, e⟩ | ⟨b, rest, hr, e⟩ <;> obtain rfl := next_unique e h
    · exact .inl ⟨canAct_eotSent hs hp hr, rfl⟩
    · exact .inr (.inl (.readsAnswer hs hp hr))
  · obtain rfl := next_unique e h
    exact .inl ⟨canAct_sendEot hs hp ht, rfl⟩
  · have hu : Act s (afterEot s) := .sendsEot hs hp ht
    rw [e] at h
    rcases eotAnswer_cases (afterEot s) with ⟨_, e⟩ | ⟨b, rest, hr, e⟩ <;> obtain rfl := next_unique e h
    · exact .inr (.inl hu)
    · exact .inr (.inr ⟨_, hu, .readsAnswer hs rfl hr⟩)

theorem steps_of_step {s t : State} (h : step s = .next t) : Steps s t := by
  cases hs : s.state with
  | init => exact steps_opInit hs (step_init hs ▸ h)
  | awaitAck => exact steps_opAwaitAck hs (step_awaitAck hs ▸ h)
  | advance => exact steps_opAdvance hs (step_advance hs ▸ h)
  | build => exact steps_opBuild hs (step_build hs ▸ h)
  | send => exact steps_opSend hs (step_send hs ▸ h)
  | sendEot => exact steps_opSendEot hs (step_sendEot hs ▸ h)
  | done =>
    cases hf : s.isFinal with
    | true =>
      obtain rfl := next_unique (step_final hf) h
      exact .inl ⟨canAct_final hf, rfl⟩
    | false =>
      obtain rfl := next_unique (step_done hs hf) h
      exact .inr (.inl (.releases hs hf))

/-- What every act keeps, every step keeps. -/
theorem keeps_of_act {P : State → Prop} (hP : ∀ s t, Act s t → P s → P t) {s t : State} (h : step s = .next t)
    (hs : P s) : P t := by
  rcases steps_of_step h with ⟨_, rfl⟩ | ha | ⟨u, ha, hb⟩
  · exact hs
  · exact hP s t ha hs
  · exact hP u t hb (hP s u ha hs)

end Sys2Proof.Machine
end

section
/-! SUPPORT. Every act keeps the sound-state invariant and the count of the builds (10_state.md R22, R35). -/

namespace Sys2Proof.Machine

/-! ## What the shared updates keep of the invariant of a running session -/

namespace State.InvRunning
variable {s : State}

theorem frame_of_ne_build (h : s.InvRunning) (hs : s.state ≠ .build) :
    s.currentBlock.HoldsFrame (s.blockNumber + 1#8) := by
  have hf := h.frame
  rwa [State.heldSequence, if_neg hs] at hf

theorem afterRx (h : s.InvRunning) (rest : List Byte) (es : List Event) : ((s.setRx rest).log es).InvRunning :=
  { h with }

theorem handOver (h : s.InvRunning) (bs : List Byte) : (s.handOver bs).InvRunning :=
  { h with }

theorem setProgress (h : s.InvRunning) {p : Progress} (hp : p.FitsIn s.state) : (s.setProgress p).InvRunning :=
  { h with mark := hp }

/-- A transfer of control that neither leaves nor enters `BUILD`, and enters `SEND_EOT` only at the end of the source. -/
theorem goto (h : s.InvRunning) {t : CtrlState} (hs : s.state ≠ .build) (ht : t ≠ .build)
    (he : t = .sendEot → s.eofFlag = true) : (s.goto t).InvRunning :=
  { h with
    frame := by simpa [State.heldSequence, ht] using h.frame_of_ne_build hs
    eofAtEot := he
    noBuildAfterEof := fun hb => absurd hb ht
    mark := trivial }

/-- R153: the counter goes one ahead of the frame in the buffer. -/
theorem countUp (h : s.InvRunning) (hs : s.state ≠ .build) (he : s.eofFlag = false) :
    ((s.setBlockNumber (s.blockNumber + 1#8)).goto .build).InvRunning :=
  { h with
    frame := h.frame_of_ne_build hs
    eofAtEot := nofun
    noBuildAfterEof := fun _ => he
    mark := trivial }

/-- R189: entry to `DONE` from a running session whose frame is the counter's. -/
theorem enterDone (h : s.InvRunning) (hs : s.state ≠ .build) {c : DoneCause} (hn : c ≠ .none)
    (hu : c ≠ .sourceUnavailable) (he : c = .complete → s.eofFlag = true) : (s.enterDone c).InvDone where
  bufferWf := h.frame.wf
  frame _ := h.frame_of_ne_build hs
  hasCause := hn
  rawFollowsOpen := h.isRaw.trans h.isOpen.symm
  nothingOpenOnFailure hc := absurd hc hu
  eofAtComplete := he
  whole := rfl

end State.InvRunning

theorem buildFrom_setRawMode (d : List Byte) (v : Bool) (s : State) :
    (buildFrom d s).setRawMode v = buildFrom d (s.setRawMode v) := by
  simp only [buildFrom, State.eofAfter, State.setRawMode, State.setEofFlag, State.setCurrentBlock]

/-- A block built from a canonical buffer with the source open and raw starts or goes on with a running session. -/
theorem invRunning_goto_of_build {d : List Byte} {s : State} {t : CtrlState} (hd : d.length ≤ 128)
    (w : s.currentBlock.wf = true) (hf : s.fileOpen = true) (hr : s.rawMode = true) (hn : s.doneCause = .none)
    (ht : t = .awaitAck ∨ t = .send) : ((buildFrom d s).goto t).InvRunning := by
  obtain ⟨h1, h2⟩ : t ≠ .build ∧ t ≠ .sendEot := by rcases ht with rfl | rfl <;> simp
  exact {
    frame := by simpa [State.heldSequence, h1] using holdsFrame_assemble_fill hd s.blockNumber w
    isOpen := by simpa using hf
    isRaw := by simpa using hr
    noCause := by simpa using hn
    eofAtEot := fun he => absurd he h2
    noBuildAfterEof := fun hb => absurd hb h1
    mark := trivial }

namespace State.InvInit
variable {s : State}

theorem opens (h : s.InvInit) (r : Option Nat) : (afterOpen r s).InvInit :=
  { h with
    openIffOpened := iff_of_true rfl rfl
    mark := rfl }

theorem openFails (h : s.InvInit) (hp : s.progress ≠ .opened) (r : Option Nat) :
    (((s.setSrcReady r).log [.srcOpenFail]).enterDone .sourceUnavailable).InvDone := by
  have hf : s.fileOpen = false := Bool.eq_false_of_not_eq_true (mt h.openIffOpened.1 hp)
  exact {
    bufferWf := h.bufferWf
    frame := fun hu => absurd rfl hu
    hasCause := nofun
    rawFollowsOpen := h.rawLow.trans hf.symm
    nothingOpenOnFailure := fun _ => hf
    eofAtComplete := nofun
    whole := rfl }

theorem buildsFirst (h : s.InvInit) (hp : s.progress = .opened) (r : Option Nat) :
    (((buildFrom (srcAnswer s) (afterRead r s)).setRawMode true).goto .awaitAck).InvRunning := by
  rw [buildFrom_setRawMode]
  exact invRunning_goto_of_build (srcAnswer_length s) (by simpa using h.bufferWf)
    (by simpa using h.openIffOpened.2 hp) rfl (by simpa using h.noCause) (.inl rfl)

end State.InvInit

theorem State.InvRunning.builds {s : State} (h : s.InvRunning) (r : Option Nat) :
    ((buildFrom (srcAnswer s) (afterRead r s)).goto .send).InvRunning :=
  invRunning_goto_of_build (srcAnswer_length s) h.frame.wf h.isOpen h.isRaw h.noCause (.inr rfl)

/-- R157: the release closes and lowers both, and keeps the rest. -/
theorem State.InvDone.release {s : State} (h : s.InvDone) : s.release.InvDone where
  bufferWf := by simpa using h.bufferWf
  frame hu := by simpa using h.frame (by simpa using hu)
  hasCause := by simpa using h.hasCause
  rawFollowsOpen := by simp
  nothingOpenOnFailure _ := release_fileOpen s
  eofAtComplete hc := by simpa using h.eofAtComplete (by simpa using hc)
  whole := by simpa using h.whole

/-! ## The invariant -/

theorem act_keeps_inv {s t : State} (ha : Act s t) (h : s.Inv) : t.Inv := by
  cases ha with
  | openFails hs hp => exact ((h.init hs).openFails hp _).inv rfl
  | opens hs => exact ((h.init hs).opens _).inv hs
  | buildsFirst hs hp => exact ((h.init hs).buildsFirst hp _).inv (State.goto_state _ _) rfl
  | readsCan hs =>
    refine State.InvDone.inv ?_ rfl
    exact ((h.running hs rfl).afterRx _ _).enterDone (by simp [hs]) nofun nofun nofun
  | readsAck hs | readsNak hs | readsOther hs =>
    refine State.InvRunning.inv ?_ rfl rfl
    exact ((h.running hs rfl).afterRx _ _).goto (by simp [hs]) nofun nofun
  | ends hs he =>
    refine State.InvRunning.inv ?_ rfl rfl
    exact (h.running hs rfl).goto (by simp [hs]) nofun fun _ => he
  | counts hs he => exact ((h.running hs rfl).countUp (by simp [hs]) he).inv rfl rfl
  | builds hs => exact ((h.running hs rfl).builds _).inv (State.goto_state _ _) rfl
  | sends hs =>
    refine State.InvRunning.inv ?_ rfl rfl
    exact ((h.running hs rfl).handOver _).goto (by simp [hs]) nofun nofun
  | stalls hs h0 hm =>
    refine State.InvRunning.inv ?_ hs rfl
    exact ((h.running hs rfl).handOver _).setProgress ⟨hs, Nat.add_pos_right _ h0, hm⟩
  | sendsEot hs =>
    refine State.InvRunning.inv ?_ hs rfl
    exact ((h.running hs rfl).handOver _).setProgress hs
  | readsAnswer hs =>
    have hr := h.running hs rfl
    refine State.InvDone.inv ?_ rfl
    exact (hr.afterRx _ _).enterDone (by simp [hs]) nofun nofun fun _ => hr.eofAtEot hs
  | releases hs => exact (h.done hs).release.inv (by simpa using hs)

/-- Settles O46: every act keeps the invariant, so every step does (`steps_of_step`). -/
theorem stepKeepsInvariant : Obligations.StepKeepsInvariant :=
  fun _ _ h hstep => keeps_of_act (fun _ _ => act_keeps_inv) hstep h

/-! ## The block counter -/

@[simp] theorem readsIn_srcOpenOk : readsIn [.srcOpenOk] = 0 := rfl
@[simp] theorem readsIn_srcOpenFail : readsIn [.srcOpenFail] = 0 := rfl
@[simp] theorem readsIn_srcRead (d : List Byte) : readsIn [.srcRead d] = 1 := rfl
@[simp] theorem readsIn_rx (b : Byte) : readsIn [.rx b] = 0 := rfl

/-- A hand-over reads nothing of the source. -/
theorem readsIn_handOver (bs : List Byte) (s : State) : readsIn (s.handOver bs).trace = readsIn s.trace := by
  simp

/-- A `SrcClose` is no read: the release leaves the count as it is. -/
@[simp] theorem readsIn_srcClose_if (b : Bool) : readsIn (if b then [.srcClose] else []) = 0 := by
  cases b <;> rfl

/-- The frame in the buffer is the counter's: a block was built and the counter is not one ahead. -/
def State.FrameIsCounters (s : State) : Prop :=
  s.state ≠ .init ∧ s.state ≠ .build ∧ s.doneCause ≠ .sourceUnavailable

theorem State.Inv.frameIsCounters {s : State} {st : CtrlState} (h : s.Inv) (hs : s.state = st) (hr : st.running = true)
    (hb : st ≠ .build) : s.FrameIsCounters :=
  ⟨hs ▸ (CtrlState.running_iff.1 hr).1, hs ▸ hb, by simp [(h.running hs hr).noCause]⟩

theorem counter_iff_of_init {s : State} (hs : s.state = .init) : s.CounterCountsReads ↔ readsIn s.trace = 0 := by
  simp [State.CounterCountsReads, hs]

theorem counter_iff_of_build {s : State} (hs : s.state = .build) (hu : s.doneCause ≠ .sourceUnavailable) :
    s.CounterCountsReads ↔ s.blockNumber = BitVec.ofNat 8 (readsIn s.trace) := by
  simp [State.CounterCountsReads, hs, hu]

theorem counter_iff_of_frame {s : State} (hf : s.FrameIsCounters) :
    s.CounterCountsReads ↔ s.blockNumber + 1#8 = BitVec.ofNat 8 (readsIn s.trace) := by
  obtain ⟨hi, hb, hu⟩ := hf
  simp [State.CounterCountsReads, hi, hb, hu]

/-- A change that neither counts nor reads keeps the count. -/
theorem counter_of_same {s t : State} (hs : s.FrameIsCounters) (ht : t.FrameIsCounters)
    (hb : t.blockNumber = s.blockNumber) (hr : readsIn t.trace = readsIn s.trace) (hc : s.CounterCountsReads) :
    t.CounterCountsReads := by
  rw [counter_iff_of_frame ht, hb, hr]
  exact (counter_iff_of_frame hs).1 hc

theorem act_keeps_counter {s t : State} (ha : Act s t) (h : s.Inv) (hc : s.CounterCountsReads) :
    t.CounterCountsReads := by
  cases ha with
  | openFails hs =>
    have h0 := (counter_iff_of_init hs).1 hc
    simpa [State.CounterCountsReads] using h0
  | opens hs =>
    refine (counter_iff_of_init (by simpa using hs)).2 ?_
    simpa using (counter_iff_of_init hs).1 hc
  | buildsFirst hs =>
    have hi := h.init hs
    have h0 := (counter_iff_of_init hs).1 hc
    refine (counter_iff_of_frame ⟨by simp, by simp, by simp [hi.noCause]⟩).2 ?_
    simp [hi.counterZero, h0]
  | readsCan hs => exact counter_of_same (h.frameIsCounters hs rfl nofun) ⟨by simp, by simp, by simp⟩ rfl (by simp) hc
  | readsAck hs | readsNak hs | readsOther hs | ends hs | readsAnswer hs =>
    have hn := (h.running hs rfl).noCause
    exact counter_of_same (h.frameIsCounters hs rfl nofun) ⟨by simp, by simp, by simp [hn]⟩ rfl (by simp) hc
  | sends hs =>
    have hn := (h.running hs rfl).noCause
    exact counter_of_same (h.frameIsCounters hs rfl nofun) ⟨by simp, by simp, by simp [hn]⟩ rfl (readsIn_handOver _ s) hc
  | counts hs =>
    have hn := (h.running hs rfl).noCause
    refine (counter_iff_of_build rfl (by simp [hn])).2 ?_
    simpa using (counter_iff_of_frame (h.frameIsCounters hs rfl nofun)).1 hc
  | builds hs =>
    have hn := (h.running hs rfl).noCause
    have hb := (counter_iff_of_build hs (by simp [hn])).1 hc
    refine (counter_iff_of_frame ⟨by simp, by simp, by simp [hn]⟩).2 ?_
    simp [hb, BitVec.ofNat_add]
  | stalls hs | sendsEot hs =>
    have hf := h.frameIsCounters hs rfl nofun
    exact counter_of_same (t := State.setProgress _ (s.handOver _)) hf hf rfl (readsIn_handOver _ s) hc
  | releases => simpa [State.CounterCountsReads] using hc

/-- Settles O49: every act keeps the count of the builds, from a sound state, which it keeps as well (`act_keeps_inv`). -/
theorem stepKeepsCounter : Obligations.StepKeepsCounter := by
  intro s t h hc hstep
  have hP : ∀ s t, Act s t → s.Inv ∧ s.CounterCountsReads → t.Inv ∧ t.CounterCountsReads :=
    fun _ _ ha ⟨h, hc⟩ => ⟨act_keeps_inv ha h, act_keeps_counter ha h hc⟩
  exact (keeps_of_act hP hstep ⟨h, hc⟩).2

end Sys2Proof.Machine
end

section
/-! SUPPORT. What each row of the operation table writes (10_state.md R20 to R27). -/

namespace Sys2Proof.Machine

/-- R20: the registers, unread bytes and source position that a run of row `i` from `s` to `t` may have written; the
clauses of `Obligations.EachRowWritesOnlyItsRegisters`, by name. -/
structure RowWrites (i : Instr) (s t : State) : Prop where
  blockNumber : t.blockNumber ≠ s.blockNumber → i = .opAdvance
  eofFlag : t.eofFlag ≠ s.eofFlag → (i = .opInit ∨ i = .opBuild ∨ i = .buildBlock) ∧ t.eofFlag = true
  buffer : ∀ a, t.bufferByte a ≠ s.bufferByte a → (i = .opInit ∨ i = .opBuild ∨ i = .buildBlock) ∧ a < 132
  fileOpen : t.fileOpen ≠ s.fileOpen → (i = .opInit ∧ t.fileOpen = true) ∨ (i = .opDone ∧ t.fileOpen = false)
  rawMode : t.rawMode ≠ s.rawMode → (i = .opInit ∧ t.rawMode = true) ∨ (i = .opDone ∧ t.rawMode = false)
  doneCause : t.doneCause ≠ s.doneCause →
    (i = .opInit ∧ t.doneCause = .sourceUnavailable) ∨
    ((i = .opAwaitAck ∨ i = .can) ∧ t.doneCause = .peerCancelled) ∨
    ((i = .opSendEot ∨ ∃ b, i = .eotResponse b) ∧ t.doneCause = .complete)
  state : (i = .opDone ∨ i = .eot ∨ i = .buildBlock ∨ i = .awaitByte ∨ (∃ p, i = .checksum8 p) ∨ ∃ bs, i = .emit bs) →
    t.state = s.state
  returned : t.returned ≠ s.returned → i = .awaitByte ∨ ∃ p, i = .checksum8 p
  rx : t.rx ≠ s.rx → (i = .opAwaitAck ∨ i = .opSendEot ∨ i = .awaitByte) ∧ t.rx = s.rx.tail
  srcPos : t.srcPos ≠ s.srcPos → i = .opInit ∨ i = .opBuild ∨ i = .buildBlock
  srcContent : t.srcContent = s.srcContent
  srcOpens : t.srcOpens = s.srcOpens
  rxDepth : t.rxDepth = s.rxDepth
  trace : s.trace <+: t.trace

/-- A row that waits writes nothing. -/
theorem RowWrites.refl (i : Instr) (s : State) : RowWrites i s s := by
  constructor <;> simp

/-! ## What a build changes -/

/-- R23: a build sets the flag or leaves it. -/
theorem eofAfter_of_ne {n : Nat} {s : State} (h : s.eofAfter n ≠ s.eofFlag) : s.eofAfter n = true := by
  cases he : s.eofFlag with
  | true => simp [State.eofAfter, he]
  | false => simpa [he] using h

/-- R24, R51: a build stores to offsets below 132 only. -/
theorem read_assemble_fill_of_ge {d : List Byte} (hd : d.length ≤ 128) (bn : Byte) (m : Memory) {a : Nat}
    (ha : 132 ≤ a) : (assemble bn (fillPayload d m)).read a = m.read a := by
  rw [read_assemble, if_neg (by omega), if_neg (by omega), if_neg (by omega), if_neg (by omega), read_fillPayload hd,
    if_neg (by omega)]

/-- What the three rows that build have in common: only `eof_flag`, the buffer below 132, the position and the trace. -/
theorem rowWrites_build {i : Instr} (hi : i = .opInit ∨ i = .opBuild ∨ i = .buildBlock) (r : Option Nat) (s : State) :
    RowWrites i s (buildFrom (srcAnswer s) (afterRead r s)) where
  blockNumber := by simp
  eofFlag he := ⟨hi, by simpa using eofAfter_of_ne (s := afterRead r s) (by simpa using he)⟩
  buffer a ha := ⟨hi, by
    by_contra hlt
    exact ha (by simpa using read_assemble_fill_of_ge (srcAnswer_length s) _ _ (by omega))⟩
  fileOpen := by simp
  rawMode := by simp
  doneCause := by simp
  state := by simp
  returned := by simp
  rx := by simp
  srcPos _ := hi
  srcContent := by simp
  srcOpens := by simp
  rxDepth := by simp
  trace := by simp

/-- A transfer of control after a run of a row that may transfer control. -/
theorem RowWrites.goto {i : Instr} {s t : State} (h : RowWrites i s t) (st : CtrlState)
    (hi : i = .opInit ∨ i = .opBuild) : RowWrites i s (t.goto st) :=
  { h with state := by rcases hi with rfl | rfl <;> simp }

/-- `OP_INIT` raises `raw_mode` (R26). -/
theorem RowWrites.raiseRawMode {s t : State} (h : RowWrites .opInit s t) : RowWrites .opInit s (t.setRawMode true) :=
  { h with rawMode := by simp }

/-! ## Two halves of a row -/

/-- A value that differs after two changes was changed by the second, or by the first and kept. -/
theorem changed_trans {α : Type} {x y z : α} {P : α → Prop} (h1 : y ≠ x → P y) (h2 : z ≠ y → P z) (h : z ≠ x) : P z := by
  by_cases hz : z = y
  · exact hz ▸ h1 (hz ▸ h)
  · exact h2 hz

/-- The two halves of a row write what the row writes, where the first half reads no inbound byte. -/
theorem RowWrites.trans {i : Instr} {s u t : State} (h1 : RowWrites i s u) (h2 : RowWrites i u t) (hrx : u.rx = s.rx) :
    RowWrites i s t where
  blockNumber := changed_trans (P := fun _ => _) h1.blockNumber h2.blockNumber
  eofFlag := changed_trans (P := fun b => _ ∧ b = true) h1.eofFlag h2.eofFlag
  buffer a := changed_trans (P := fun _ => _) (h1.buffer a) (h2.buffer a)
  fileOpen := changed_trans (P := fun b => (_ ∧ b = true) ∨ (_ ∧ b = false)) h1.fileOpen h2.fileOpen
  rawMode := changed_trans (P := fun b => (_ ∧ b = true) ∨ (_ ∧ b = false)) h1.rawMode h2.rawMode
  doneCause := changed_trans
    (P := fun c : DoneCause => (_ ∧ c = .sourceUnavailable) ∨ (_ ∧ c = .peerCancelled) ∨ (_ ∧ c = .complete)) h1.doneCause
    h2.doneCause
  state hi := (h2.state hi).trans (h1.state hi)
  returned := changed_trans (P := fun _ => _) h1.returned h2.returned
  rx := hrx ▸ h2.rx
  srcPos := changed_trans (P := fun _ => _) h1.srcPos h2.srcPos
  srcContent := h2.srcContent.trans h1.srcContent
  srcOpens := h2.srcOpens.trans h1.srcOpens
  rxDepth := h2.rxDepth.trans h1.rxDepth
  trace := h1.trace.trans h2.trace

/-! ## The rows -/

theorem rowWrites_initBuild (s : State) : RowWrites .opInit s (initBuild s) := by
  rcases initBuild_cases s with ⟨_, e⟩ | ⟨r, _, e⟩ <;> rw [e]
  · exact .refl _ s
  · exact ((rowWrites_build (.inl rfl) r s).raiseRawMode).goto _ (.inl rfl)

theorem rowWrites_afterOpen (r : Option Nat) (s : State) : RowWrites .opInit s (afterOpen r s) := by
  constructor <;> simp

theorem rowWrites_opInit {s t : State} (h : execOpInit s = .next t) : RowWrites .opInit s t := by
  rcases execOpInit_cases s with ⟨_, e⟩ | ⟨_, _, e⟩ | ⟨r, _, _, _, e⟩ | ⟨r, _, _, _, e⟩ <;> obtain rfl := next_unique e h
  · exact rowWrites_initBuild s
  · exact .refl _ s
  · exact (rowWrites_afterOpen r s).trans (rowWrites_initBuild _) (afterOpen_rx r s)
  · constructor <;> simp

theorem rowWrites_opAwaitAck {s t : State} (h : execOpAwaitAck s = .next t) : RowWrites .opAwaitAck s t := by
  rcases execOpAwaitAck_cases s with ⟨_, e⟩ | ⟨rest, hr, e⟩ | ⟨rest, hr, e⟩ | ⟨rest, hr, e⟩ |
      ⟨b, rest, _, _, _, hr, e⟩ <;>
    obtain rfl := next_unique e h
  · exact .refl _ s
  all_goals constructor <;> simp [hr]

theorem rowWrites_opAdvance {s t : State} (h : execOpAdvance s = .next t) : RowWrites .opAdvance s t := by
  rcases execOpAdvance_cases s with ⟨_, e⟩ | ⟨_, e⟩ <;> obtain rfl := next_unique e h <;> constructor <;> simp

theorem rowWrites_opBuild {s t : State} (h : execOpBuild s = .next t) : RowWrites .opBuild s t := by
  rcases execOpBuild_cases s with ⟨_, e⟩ | ⟨_, _, e⟩ | ⟨r, _, _, e⟩
  · exact absurd (e.symm.trans h) nofun
  · obtain rfl := next_unique e h
    exact .refl _ s
  · obtain rfl := next_unique e h
    exact (rowWrites_build (.inr (.inl rfl)) r s).goto _ (.inr rfl)

theorem rowWrites_buildBlock {s t : State} (h : execBuildBlock s = .next t) : RowWrites .buildBlock s t := by
  rcases execBuildBlock_cases s with ⟨_, e⟩ | ⟨_, _, e⟩ | ⟨r, _, _, e⟩
  · exact absurd (e.symm.trans h) nofun
  · obtain rfl := next_unique e h
    exact .refl _ s
  · obtain rfl := next_unique e h
    exact rowWrites_build (.inr (.inr rfl)) r s

/-- The rows that send a frame write no register but `state`. -/
theorem rowWrites_sendFrame {i : Instr} (hi : i = .opSend ∨ ∃ q c p k, i = .block q c p k) (bs : List Byte) (s : State) :
    RowWrites i s (sendFrame bs s) := by
  rcases sendFrame_cases bs s with e | ⟨m, _, _, _, e⟩ | ⟨_, _, e⟩ <;> rw [e]
  · rcases hi with rfl | ⟨q, c, p, k, rfl⟩ <;> constructor <;> simp
  · constructor <;> simp
  · exact .refl _ s

theorem rowWrites_block {q c k : Byte} {p : List Byte} {s t : State} (h : execBlock q c p k s = .next t) :
    RowWrites (.block q c p k) s t := by
  unfold execBlock at h
  split at h
  · obtain rfl := Host.Outcome.next.inj h
    exact rowWrites_sendFrame (.inr ⟨q, c, p, k, rfl⟩) _ s
  · cases h

theorem rowWrites_emit (bs : List Byte) (s : State) : RowWrites (.emit bs) s (emit bs s).2 := by
  rcases emit_cases bs s with e | ⟨m, _, _, _, e⟩ | ⟨_, _, e⟩ <;> rw [e]
  · constructor <;> simp
  · constructor <;> simp
  · exact .refl _ s

theorem rowWrites_afterEot (i : Instr) (s : State) : RowWrites i s (afterEot s) := by
  constructor <;> simp [afterEot]

theorem rowWrites_eot {s t : State} (h : execEot s = .next t) : RowWrites .eot s t := by
  rcases execEot_cases s with ⟨_, e⟩ | ⟨_, e⟩ <;> obtain rfl := next_unique e h
  · exact .refl _ s
  · exact rowWrites_afterEot _ s

theorem rowWrites_eotAnswer {s t : State} (h : eotAnswer s = .next t) : RowWrites .opSendEot s t := by
  rcases eotAnswer_cases s with ⟨_, e⟩ | ⟨b, rest, hr, e⟩ <;> obtain rfl := next_unique e h
  · exact .refl _ s
  · constructor <;> simp [hr]

theorem rowWrites_opSendEot {s t : State} (h : execOpSendEot s = .next t) : RowWrites .opSendEot s t := by
  rcases execOpSendEot_cases s with ⟨_, e⟩ | ⟨_, _, e⟩ | ⟨_, _, e⟩
  · exact rowWrites_eotAnswer (e ▸ h)
  · obtain rfl := next_unique e h
    exact .refl _ s
  · exact (rowWrites_afterEot _ s).trans (rowWrites_eotAnswer (e ▸ h)) rfl

theorem rowWrites_opDone (s : State) : RowWrites .opDone s s.release := by
  constructor <;> simp

theorem rowWrites_awaitByte {s t : State} (h : execAwaitByte s = .next t) : RowWrites .awaitByte s t := by
  rcases execAwaitByte_cases s with ⟨_, e⟩ | ⟨b, rest, hr, e⟩ <;> obtain rfl := next_unique e h
  · exact .refl _ s
  · constructor <;> simp [hr]

theorem rowWrites_checksum8 {p : List Byte} {s t : State} (h : execChecksum8 p s = .next t) :
    RowWrites (.checksum8 p) s t := by
  unfold execChecksum8 at h
  split at h
  · obtain rfl := Host.Outcome.next.inj h
    constructor <;> simp
  · cases h

theorem rowWrites_of_exec {i : Instr} {s t : State} (h : exec i s = .next t) : RowWrites i s t := by
  cases i with
  | ack | nak | can | ignored | eotResponse =>
    obtain rfl := Host.Outcome.next.inj h
    constructor <;> simp
  | block => exact rowWrites_block h
  | eot => exact rowWrites_eot h
  | opInit => exact rowWrites_opInit h
  | opAwaitAck => exact rowWrites_opAwaitAck h
  | opAdvance => exact rowWrites_opAdvance h
  | opBuild => exact rowWrites_opBuild h
  | opSend => exact Host.Outcome.next.inj h ▸ rowWrites_sendFrame (.inl rfl) _ s
  | opSendEot => exact rowWrites_opSendEot h
  | opDone => exact Host.Outcome.next.inj h ▸ rowWrites_opDone s
  | checksum8 => exact rowWrites_checksum8 h
  | buildBlock => exact rowWrites_buildBlock h
  | emit bs => exact Host.Outcome.next.inj h ▸ rowWrites_emit bs s
  | awaitByte => exact rowWrites_awaitByte h

/-- Settles O42: row by row (`rowWrites_of_exec`). -/
theorem eachRowWritesOnlyItsRegisters : Obligations.EachRowWritesOnlyItsRegisters := by
  intro i s t h
  have w := rowWrites_of_exec h
  exact ⟨w.blockNumber, w.eofFlag, w.buffer, w.fileOpen, w.rawMode, w.doneCause, w.state, w.returned, w.rx, w.srcPos,
    w.srcContent, w.srcOpens, w.rxDepth, w.trace⟩

end Sys2Proof.Machine
end

section
/-! SUPPORT. The state after reset, and what the host reads of a state (10_state.md R31, R34). -/

namespace Sys2Proof.Machine

theorem invInit_reset : State.reset.InvInit where
  bufferWf := rfl
  openIffOpened := by simp [State.reset]
  rawLow := rfl
  noCause := rfl
  counterZero := rfl
  eofLow := rfl
  mark := trivial

theorem outboundShape_reset : State.reset.OutboundShape := ⟨[], nofun, rfl⟩

theorem counterCountsReads_reset : State.reset.CounterCountsReads := (counter_iff_of_init rfl).2 rfl

/-- No ACK is read yet; the clauses for the other states say nothing of `INIT`. -/
theorem acksCountBlocks_reset : State.reset.AcksCountBlocks :=
  ⟨fun _ => rfl, by simp [State.reset], nofun⟩

/-- No block is read yet; the clause for a built block says nothing of `INIT`. -/
theorem readsAreFull_reset : State.reset.ReadsAreFull :=
  ⟨nofun, fun _ => rfl, fun hi => absurd rfl hi⟩

theorem traceSoFar_reset : State.reset.TraceSoFar := rfl

/-- Settles O45: each invariant at reset, the sound-state invariant by its clauses for `INIT` (`State.InvInit.inv`). -/
theorem resetMeetsInvariant : Obligations.ResetMeetsInvariant :=
  ⟨invInit_reset.inv rfl, outboundShape_reset, counterCountsReads_reset, acksCountBlocks_reset, readsAreFull_reset,
    traceSoFar_reset⟩

/-- Settles O1: the fields of `State.reset`, and the step of a unit in `INIT` (`step_init`). -/
theorem resetLeavesRegisters : Obligations.ResetLeavesRegisters :=
  ⟨rfl, rfl, rfl, rfl, rfl, rfl, rfl, step_init rfl⟩

theorem length_outputs_currentBlock (s : State) : s.outputs.currentBlock.length = 132 :=
  Memory.length_readRange _ _ _

theorem getElem?_outputs_currentBlock (s : State) {a : Nat} (ha : a < 132) :
    s.outputs.currentBlock[a]? = some (s.bufferByte a) := by
  rw [List.getElem?_eq_getElem (by rwa [length_outputs_currentBlock])]
  simp [State.outputs]

/-- Settles O3: six outputs are registers as they stand; the buffer's bytes stand in the order of their offsets. -/
theorem outputsShowRegisters : Obligations.OutputsShowRegisters := fun s =>
  ⟨rfl, rfl, rfl, rfl, rfl, rfl, length_outputs_currentBlock s, fun _ => getElem?_outputs_currentBlock s⟩

end Sys2Proof.Machine
end

section
/-! SUPPORT. The source's read position against the builds (20_memory.md R52, R57). -/

namespace Sys2Proof.Machine

/-- What every act keeps from a sound state, every step keeps from one. -/
theorem keeps_of_act_of_inv {P : State → Prop} (hP : ∀ s t, Act s t → s.Inv → P s → P t) {s t : State} (h : s.Inv)
    (hstep : step s = .next t) (hs : P s) : P t :=
  (keeps_of_act (P := fun u => u.Inv ∧ P u)
    (fun u v ha ⟨hi, hu⟩ => ⟨act_keeps_inv ha hi, hP u v ha hi hu⟩) hstep ⟨h, hs⟩).2

/-- While no read has fallen short, the position is 128 a read. -/
def State.PositionCountsReads (s : State) : Prop := s.eofFlag = false → s.srcPos = 128 * readsIn s.trace

/-- A change of neither the flag, the position nor the reads keeps the count. -/
theorem State.PositionCountsReads.of_same {s t : State} (h : s.PositionCountsReads) (he : t.eofFlag = s.eofFlag)
    (hp : t.srcPos = s.srcPos) (hr : readsIn t.trace = readsIn s.trace) : t.PositionCountsReads := by
  unfold State.PositionCountsReads
  rw [he, hp, hr]
  exact h

/-- R123: the flag is 0 after a read exactly when it was 0 and the read answered 128 bytes. -/
theorem eofAfter_eq_false_iff {n : Nat} (hn : n ≤ 128) (s : State) :
    s.eofAfter n = false ↔ s.eofFlag = false ∧ n = 128 := by
  have hfull : 128 ≤ n ↔ n = 128 := ⟨fun h => Nat.le_antisymm hn h, fun h => h.ge⟩
  simp [State.eofAfter, eofSeen, hfull]

/-- R57: a build whose read falls short sets the flag; any other is one read more and moves the position by 128. -/
theorem State.PositionCountsReads.build {s : State} (h : s.PositionCountsReads) (r : Option Nat) :
    (buildFrom (srcAnswer s) (afterRead r s)).PositionCountsReads := by
  intro he
  rw [buildFrom_eofFlag, eofAfter_eq_false_iff (srcAnswer_length s), afterRead_eofFlag] at he
  obtain ⟨hlow, hfull⟩ := he
  have hpos := h hlow
  simp only [buildFrom_srcPos, buildFrom_trace, afterRead_srcPos, afterRead_trace, readsIn_append, readsIn_srcRead]
  omega

namespace State.ReadsAreFull
variable {s : State}

theorem srcPos_of_opened (h : s.ReadsAreFull) (hp : s.progress = .opened) : s.srcPos = 0 := h.1 hp

theorem readsIn_of_init (h : s.ReadsAreFull) (hs : s.state = .init) : readsIn s.trace = 0 := h.2.1 hs

/-- Between the open and the first read both are 0. -/
theorem position_of_opened (h : s.ReadsAreFull) (hs : s.state = .init) (hp : s.progress = .opened) :
    s.PositionCountsReads :=
  fun _ => by rw [h.srcPos_of_opened hp, h.readsIn_of_init hs]

theorem position_of_running (h : s.ReadsAreFull) (hi : s.Inv) {st : CtrlState} (hs : s.state = st)
    (hr : st.running = true) : s.PositionCountsReads :=
  h.2.2 (hs ▸ (CtrlState.running_iff.1 hr).1) (by simp [(hi.running hs hr).noCause])

end State.ReadsAreFull

/-- After the first build the count is all that is left to say. -/
theorem State.PositionCountsReads.readsAreFull {s : State} (h : s.PositionCountsReads) (hi : s.state ≠ .init)
    (hp : s.progress ≠ .opened) : s.ReadsAreFull :=
  ⟨fun ho => absurd ho hp, fun hs => absurd hs hi, fun _ _ => h⟩

theorem act_keeps_readsAreFull {s t : State} (ha : Act s t) (h : s.Inv) (hc : s.ReadsAreFull) : t.ReadsAreFull := by
  cases ha with
  | openFails => exact ⟨nofun, nofun, fun _ hu => absurd rfl hu⟩
  | opens hs =>
    exact ⟨fun _ => afterOpen_srcPos _ s, fun _ => by simpa using hc.readsIn_of_init hs, fun hi => absurd hs hi⟩
  | @buildsFirst r hs hp =>
    refine State.PositionCountsReads.readsAreFull ?_ (by simp) (by simp)
    exact ((hc.position_of_opened hs hp).build r).of_same rfl rfl rfl
  | @builds r hs =>
    refine State.PositionCountsReads.readsAreFull ?_ (by simp) (by simp)
    exact ((hc.position_of_running h hs rfl).build r).of_same rfl rfl rfl
  | readsCan hs | readsAck hs | readsNak hs | readsOther hs | readsAnswer hs | ends hs | counts hs =>
    refine State.PositionCountsReads.readsAreFull ?_ (by simp) (by simp)
    exact (hc.position_of_running h hs rfl).of_same rfl rfl (by simp)
  | sends hs =>
    refine State.PositionCountsReads.readsAreFull ?_ (by simp) (by simp)
    exact (hc.position_of_running h hs rfl).of_same rfl rfl (readsIn_handOver _ s)
  | stalls hs | sendsEot hs =>
    refine State.PositionCountsReads.readsAreFull ?_ (by simp [hs, afterEot]) nofun
    exact (hc.position_of_running h hs rfl).of_same rfl rfl (readsIn_handOver _ s)
  | releases => simpa [State.ReadsAreFull] using hc

/-- Settles O53: every act keeps the read position 128 a build, from a sound state (`act_keeps_readsAreFull`). -/
theorem stepKeepsReadPosition : Obligations.StepKeepsReadPosition :=
  fun _ _ h hc hstep => keeps_of_act_of_inv (fun _ _ => act_keeps_readsAreFull) h hstep hc

end Sys2Proof.Machine
end

section
/-! SUPPORT. The codes of the two enumerated registers, and the operation each state selects (30_encoding.md R92, R93). -/

namespace Sys2Proof.Machine

/-- The operation of a state (R92): what `fetch` reads off the `state` register, as a table of the seven states. -/
def CtrlState.operation : CtrlState → Instr
  | .init => .opInit
  | .awaitAck => .opAwaitAck
  | .advance => .opAdvance
  | .build => .opBuild
  | .send => .opSend
  | .sendEot => .opSendEot
  | .done => .opDone

theorem fetch_eq_operation (s : State) : fetch s = s.state.operation := by
  unfold fetch
  cases s.state <;> rfl

/-- R92: a code names the one state that has it. -/
theorem CtrlState.ofCode_eq_some_iff {c : StateCode} {t : CtrlState} : CtrlState.ofCode c = some t ↔ c = t.code := by
  revert c
  cases t <;> decide

theorem CtrlState.ofCode_code (t : CtrlState) : CtrlState.ofCode t.code = some t := CtrlState.ofCode_eq_some_iff.2 rfl

theorem CtrlState.ofCode_seven : CtrlState.ofCode 7#3 = none := rfl

theorem CtrlState.code_ne_seven (t : CtrlState) : t.code ≠ 7#3 := fun h => by
  have hc := t.ofCode_code
  rw [h, CtrlState.ofCode_seven] at hc
  cases hc

/-- R92: a code selects the operation of the state it names. -/
theorem decodeStateCode_eq_map (c : StateCode) : decodeStateCode c = (CtrlState.ofCode c).map CtrlState.operation := by
  revert c
  decide

theorem decodeStateCode_code (t : CtrlState) : decodeStateCode t.code = some t.operation := by
  rw [decodeStateCode_eq_map, t.ofCode_code, Option.map_some]

/-- Settles O4: codes and states name each other (`CtrlState.ofCode_eq_some_iff`), and a state's code selects what the step
fetches (`decodeStateCode_code`, `fetch_eq_operation`). -/
theorem stateCodesSelectOperations : Obligations.StateCodesSelectOperations :=
  ⟨rfl, rfl, rfl, rfl, rfl, rfl, rfl, CtrlState.ofCode_code, CtrlState.ofCode_seven,
    fun s => fetch_eq_operation s ▸ decodeStateCode_code s.state, rfl, CtrlState.code_ne_seven,
    rfl, rfl, rfl, rfl, rfl, rfl, rfl, rfl⟩

theorem DoneCause.ofCode_code (c : DoneCause) : DoneCause.ofCode c.code = c := by
  cases c <;> rfl

theorem DoneCause.code_ofCode (k : CauseCode) : (DoneCause.ofCode k).code = k := by
  revert k
  decide

/-- Settles O5: four causes, four codes, and both round trips. -/
theorem causeCodesAreFour : Obligations.CauseCodesAreFour :=
  ⟨rfl, rfl, rfl, rfl, DoneCause.ofCode_code, DoneCause.code_ofCode⟩

end Sys2Proof.Machine
end

section
/-! SUPPORT. What the decoder can answer in each of the four places, and that it undoes the encoder (30_encoding.md R81 to
R94). -/

namespace Sys2Proof.Machine

/-! ## `CTRL_IN`: a byte read in `AWAIT_ACK` -/

/-- Everything a control byte can decode to (R89, R90). -/
theorem decodeCtrlIn_cases (c : Byte) :
    (c = Config.CAN ∧ decodeCtrlIn c = .can) ∨ (c = Config.ACK ∧ decodeCtrlIn c = .ack) ∨
    (c = Config.NAK ∧ decodeCtrlIn c = .nak) ∨
    (c ≠ Config.CAN ∧ c ≠ Config.ACK ∧ c ≠ Config.NAK ∧ decodeCtrlIn c = .ignored c) := by
  unfold decodeCtrlIn
  by_cases h1 : c = Config.CAN
  · exact .inl ⟨h1, if_pos h1⟩
  by_cases h2 : c = Config.ACK
  · exact .inr (.inl ⟨h2, by rw [if_neg h1, if_pos h2]⟩)
  by_cases h3 : c = Config.NAK
  · exact .inr (.inr (.inl ⟨h3, by rw [if_neg h1, if_neg h2, if_pos h3]⟩))
  · exact .inr (.inr (.inr ⟨h1, h2, h3, by rw [if_neg h1, if_neg h2, if_neg h3]⟩))

/-- The default row is well formed exactly where the decoder takes it (R90). -/
theorem wf_ignored_iff {c : Byte} :
    (Instr.ignored c).wf = true ↔ c ≠ Config.ACK ∧ c ≠ Config.NAK ∧ c ≠ Config.CAN := by
  simp [Instr.wf, and_assoc]

theorem decodeCtrlIn_of_wf_ignored {c : Byte} (h : (Instr.ignored c).wf = true) : decodeCtrlIn c = .ignored c := by
  obtain ⟨h2, h3, h1⟩ := wf_ignored_iff.1 h
  rcases decodeCtrlIn_cases c with ⟨hc, _⟩ | ⟨hc, _⟩ | ⟨hc, _⟩ | ⟨_, _, _, e⟩
  · exact absurd hc h1
  · exact absurd hc h2
  · exact absurd hc h3
  · exact e

theorem encode_decodeCtrlIn (c : Byte) : encode (decodeCtrlIn c) = some (.awaitAck, [c]) := by
  rcases decodeCtrlIn_cases c with ⟨rfl, e⟩ | ⟨rfl, e⟩ | ⟨rfl, e⟩ | ⟨_, _, _, e⟩ <;> rw [e] <;> rfl

/-- Settles O10: row by row (`decodeCtrlIn_cases`). -/
theorem controlByteFallsInOneRow : Obligations.ControlByteFallsInOneRow := by
  intro c
  rcases decodeCtrlIn_cases c with ⟨rfl, e⟩ | ⟨rfl, e⟩ | ⟨rfl, e⟩ | ⟨h1, h2, h3, e⟩
  · simp [e, Instr.wf]
  · simp [e, Instr.wf]
  · simp [e, Instr.wf]
  · rw [e, wf_ignored_iff]
    exact ⟨iff_of_false nofun h2, iff_of_false nofun h3, iff_of_false nofun h1, iff_of_true rfl ⟨h2, h3, h1⟩, h2, h3, h1⟩

/-! ## `STATE`: the code in the `state` register -/

theorem encode_operation (t : CtrlState) : encode t.operation = some (.stateReg, [t.code.setWidth 8]) := by
  cases t <;> rfl

/-- A byte below 8 is its own low three bits. -/
theorem setWidth_ofNat_toNat {b : Byte} (hb : b.toNat < 8) : (BitVec.ofNat 3 b.toNat).setWidth 8 = b := by
  apply BitVec.eq_of_toNat_eq
  simp
  omega

/-- A state byte that is read as an operation is the code of the state that selects it (R92). -/
theorem eq_of_decodeStateByte {b : Byte} {bs rest : List Byte} {i : Instr} (h : decodeStateByte b bs = .instr i rest) :
    ∃ t : CtrlState, i = t.operation ∧ b = t.code.setWidth 8 ∧ bs = rest := by
  unfold decodeStateByte at h
  split at h
  · rename_i hb
    cases hd : decodeStateCode (BitVec.ofNat 3 b.toNat) with
    | none =>
      rw [hd] at h
      cases h
    | some j =>
      rw [hd] at h
      obtain ⟨rfl, rfl⟩ := Decoded.instr.inj h
      rw [decodeStateCode_eq_map, Option.map_eq_some_iff] at hd
      obtain ⟨t, ht, rfl⟩ := hd
      exact ⟨t, rfl, by rw [← CtrlState.ofCode_eq_some_iff.1 ht, setWidth_ofNat_toNat hb], rfl⟩
  · cases h

/-! ## `FRAME` and `CTRL_OUT`: the outbound stream -/

theorem encode_block (q c : Byte) (p : List Byte) (k : Byte) :
    encode (.block q c p k) = some (.outbound, frameBytes q c p k) := by
  simp [encode, frameBytes]

/-- R94: the 131 bytes after the start marker belong to the frame, whatever their values. -/
theorem decodeOutbound_frameBytes {p : List Byte} (hp : p.length = 128) (q c k : Byte) (rest : List Byte) :
    decodeOutbound (frameBytes q c p k ++ rest) = .instr (.block q c p k) rest := by
  simp [decodeOutbound, frameBytes, ← hp]

/-- Everything the outbound decoder can read: the EOT, or a frame of 132 bytes. -/
theorem eq_of_decodeOutbound {bs rest : List Byte} {i : Instr} (h : decodeOutbound bs = .instr i rest) :
    (i = .eot ∧ bs = Config.EOT :: rest) ∨
    ∃ q c p k, i = .block q c p k ∧ bs = frameBytes q c p k ++ rest := by
  unfold decodeOutbound at h
  split at h
  · cases h
  · split at h
    · rename_i hb
      obtain ⟨rfl, rfl⟩ := Decoded.instr.inj h
      exact .inl ⟨rfl, by rw [hb]⟩
    · split at h
      · rename_i hb
        split at h
        · rename_i q c tail
          split at h
          · rename_i k rest' hd
            obtain ⟨rfl, rfl⟩ := Decoded.instr.inj h
            refine .inr ⟨q, c, tail.take Config.payloadLen, k, rfl, ?_⟩
            have ht : tail.take Config.payloadLen ++ k :: rest' = tail := hd ▸ List.take_append_drop _ tail
            simp [hb, frameBytes, ht]
          · cases h
        · cases h
      · cases h

/-! ## All four places -/

theorem length_of_wf_block {q c k : Byte} {p : List Byte} (h : (Instr.block q c p k).wf = true) : p.length = 128 := by
  simp only [Instr.wf, Bool.and_eq_true, beq_iff_eq] at h
  exact h.1.1

/-- Settles O7: the fixed words by evaluation, the default row where its byte is none of the three
(`decodeCtrlIn_of_wf_ignored`), the frame by its length (`decodeOutbound_frameBytes`). -/
theorem decodeOfEncode : Obligations.DecodeOfEncode := by
  intro i sp ws rest hwf h
  cases i with
  | ignored b =>
    cases h
    exact congrArg (Decoded.instr · rest) (decodeCtrlIn_of_wf_ignored hwf)
  | block q c p k =>
    rw [encode_block] at h
    cases h
    exact decodeOutbound_frameBytes (length_of_wf_block hwf) q c k rest
  | checksum8 | buildBlock | emit | awaitByte => cases h
  | _ =>
    cases h
    rfl

/-- Settles O8: what was read in each place (`encode_decodeCtrlIn`, `eq_of_decodeStateByte`, `eq_of_decodeOutbound`). -/
theorem encodeOfDecode : Obligations.EncodeOfDecode := by
  intro sp bs rest i h
  match sp, bs with
  | .awaitAck, [] | .sendEot, [] | .stateReg, [] => cases h
  | .awaitAck, b :: _ =>
    cases h
    exact ⟨[b], encode_decodeCtrlIn b, rfl⟩
  | .sendEot, b :: _ =>
    cases h
    exact ⟨[b], rfl, rfl⟩
  | .stateReg, b :: _ =>
    obtain ⟨t, rfl, rfl, rfl⟩ := eq_of_decodeStateByte h
    exact ⟨[t.code.setWidth 8], encode_operation t, rfl⟩
  | .outbound, _ =>
    rcases eq_of_decodeOutbound h with ⟨rfl, rfl⟩ | ⟨q, c, p, k, rfl, rfl⟩
    · exact ⟨[Config.EOT], rfl, rfl⟩
    · exact ⟨frameBytes q c p k, encode_block q c p k, rfl⟩

/-- Settles O6: each word evaluated. -/
theorem tableWordsDecode : Obligations.TableWordsDecode :=
  ⟨rfl, rfl, rfl, rfl, rfl, rfl, rfl, rfl, rfl, rfl⟩

/-! ## The outbound stream cut into items -/

/-- R81 to R86: a frame is the encoding of a well-formed `BLOCK`. -/
theorem exists_block_of_isFrame {f : List Byte} (hf : IsFrame f) :
    ∃ i : Instr, encode i = some (.outbound, f) ∧ i.wf = true := by
  obtain ⟨q, p, hp, rfl⟩ := hf
  exact ⟨.block q (complementByte q) p (checksumOf p), encode_block _ _ _ _, by simp [Instr.wf, hp]⟩

/-- An item at the front of the stream is cut off and the cut goes on behind it. -/
theorem decodeStream_succ {bs rest : List Byte} {i : Instr} (h : decodeOutbound bs = .instr i rest) (n : Nat) :
    decodeStream (n + 1) bs = (i :: (decodeStream n rest).1, (decodeStream n rest).2) := by
  simp only [decodeStream, h]

/-- Settles O9: by induction on the frames; the first is read back from the stream as its encoding (`decodeOfEncode`). -/
theorem readerCutsOutboundStream : Obligations.ReaderCutsOutboundStream := by
  intro frames hframes
  induction frames with
  | nil => exact ⟨[], rfl, nofun, rfl⟩
  | cons f fs ih =>
    obtain ⟨hf, hfs⟩ := List.forall_mem_cons.1 hframes
    obtain ⟨blocks, henc, hwf, hcut⟩ := ih hfs
    obtain ⟨i, hi, hiwf⟩ := exists_block_of_isFrame hf
    have hread : decodeOutbound (f ++ (fs.flatten ++ [0x04#8])) = .instr i (fs.flatten ++ [0x04#8]) :=
      decodeOfEncode i .outbound f _ hiwf hi
    refine ⟨i :: blocks, by simp [hi, henc], List.forall_mem_cons.2 ⟨hiwf, hwf⟩, ?_⟩
    rw [List.flatten_cons, List.append_assoc, List.length_cons, decodeStream_succ hread, hcut, List.cons_append]

end Sys2Proof.Machine
end

section
/-! SUPPORT. The shape of the outbound stream (30_encoding.md R94): what each act adds to it. -/

namespace Sys2Proof.Machine

@[simp] theorem outboundOf_srcOpenOk : outboundOf [.srcOpenOk] = [] := rfl
@[simp] theorem outboundOf_srcOpenFail : outboundOf [.srcOpenFail] = [] := rfl
@[simp] theorem outboundOf_srcRead (d : List Byte) : outboundOf [.srcRead d] = [] := rfl
@[simp] theorem outboundOf_rx (b : Byte) : outboundOf [.rx b] = [] := rfl
@[simp] theorem outboundOf_srcClose_if (b : Bool) : outboundOf (if b then [.srcClose] else []) = [] := by
  cases b <;> rfl

theorem outboundOf_handOver (bs : List Byte) (s : State) :
    outboundOf (s.handOver bs).trace = outboundOf s.trace ++ bs := by
  simp

/-! ## The tail by state -/

theorem outboundTail_of_send {s : State} (hs : s.state = .send) :
    s.outboundTail = s.bufferBytes.take s.progress.sentSoFar :=
  if_pos hs

/-- At a step boundary of the spec nothing stands behind the last whole frame, but for the EOT of a completed session. -/
theorem outboundTail_of_idle {s : State} (hp : s.progress = .idle) (hc : s.doneCause ≠ .complete) :
    s.outboundTail = [] := by
  simp [State.outboundTail, hp, hc, Progress.sentSoFar]

theorem outboundTail_of_eot {s : State} (hs : s.state ≠ .send) (he : s.progress = .eotSent ∨ s.doneCause = .complete) :
    s.outboundTail = [Config.EOT] := by
  rw [State.outboundTail, if_neg hs, if_pos he]

theorem outboundTail_of_no_eot {s : State} (hs : s.state ≠ .send) (hp : s.progress ≠ .eotSent)
    (hc : s.doneCause ≠ .complete) : s.outboundTail = [] := by
  simp [State.outboundTail, hs, hp, hc]

/-- Only `SEND`, `SEND_EOT` and `DONE` can have a part of an item behind the last whole frame. -/
theorem State.Inv.outboundTail_eq_nil {s : State} {st : CtrlState} (h : s.Inv) (hs : s.state = st) (h1 : st ≠ .send)
    (h2 : st ≠ .sendEot) (h3 : st ≠ .done) : s.outboundTail = [] := by
  subst hs
  refine outboundTail_of_no_eot h1 (fun hp => h2 (h.eotSentInSendEot hp)) fun hc => h3 ?_
  by_contra hd
  simp [h.causeIffDone.2 hd] at hc

/-- R35 (a): the buffer of a running session holds a frame. -/
theorem State.InvRunning.isFrame {s : State} (h : s.InvRunning) : IsFrame s.bufferBytes :=
  isFrame_readRange h.frame.marker h.frame.complement h.frame.checksum

/-! ## The shape after a change -/

namespace State.OutboundShape
variable {s t : State}

/-- Bytes handed over that stand at the end of the tail as well leave the whole frames as they are. -/
theorem extend (h : s.OutboundShape) {bs : List Byte} (ho : outboundOf t.trace = outboundOf s.trace ++ bs)
    (ht : t.outboundTail = s.outboundTail ++ bs) : t.OutboundShape := by
  obtain ⟨frames, hf, e⟩ := h
  exact ⟨frames, hf, by rw [ho, ht, e, List.append_assoc]⟩

/-- A change that sends nothing and keeps the tail. -/
theorem of_same (h : s.OutboundShape) (ho : outboundOf t.trace = outboundOf s.trace)
    (ht : t.outboundTail = s.outboundTail) : t.OutboundShape :=
  h.extend (bs := []) (by rw [ho, List.append_nil]) (by rw [ht, List.append_nil])

/-- Bytes that make the tail a whole frame. -/
theorem completeFrame (h : s.OutboundShape) {bs : List Byte} (ho : outboundOf t.trace = outboundOf s.trace ++ bs)
    (hf : IsFrame (s.outboundTail ++ bs)) (ht : t.outboundTail = []) : t.OutboundShape := by
  obtain ⟨frames, hframes, e⟩ := h
  refine ⟨frames ++ [s.outboundTail ++ bs], ?_, by rw [ho, ht, e]; simp⟩
  intro f hm
  rcases List.mem_append.1 hm with hm | hm
  · exact hframes f hm
  · exact List.mem_singleton.1 hm ▸ hf

end State.OutboundShape

theorem act_keeps_outboundShape {s t : State} (ha : Act s t) (h : s.Inv) (hc : s.OutboundShape) : t.OutboundShape := by
  cases ha with
  | openFails hs | readsCan hs =>
    refine hc.of_same (by simp) ?_
    rw [h.outboundTail_eq_nil hs nofun nofun nofun]
    exact outboundTail_of_idle rfl nofun
  | opens hs =>
    refine hc.of_same (by simp) ?_
    rw [h.outboundTail_eq_nil hs nofun nofun nofun]
    exact outboundTail_of_no_eot (by simp [hs]) nofun (by simp [(h.init hs).noCause])
  | buildsFirst hs =>
    refine hc.of_same (by simp) ?_
    rw [h.outboundTail_eq_nil hs nofun nofun nofun]
    exact outboundTail_of_idle rfl (by simp [(h.init hs).noCause])
  | readsAck hs | readsNak hs | readsOther hs | ends hs | counts hs | builds hs =>
    refine hc.of_same (by simp) ?_
    rw [h.outboundTail_eq_nil hs nofun nofun nofun]
    exact outboundTail_of_idle rfl (by simp [(h.running hs rfl).noCause])
  | sends hs =>
    have hr := h.running hs rfl
    refine hc.completeFrame (outboundOf_handOver _ s) ?_ (outboundTail_of_idle rfl (by simp [hr.noCause]))
    rw [outboundTail_of_send hs, List.take_append_drop]
    exact hr.isFrame
  | stalls hs =>
    refine hc.extend (outboundOf_handOver _ s) ?_
    rw [outboundTail_of_send hs, outboundTail_of_send (by simpa using hs)]
    exact List.take_add
  | sendsEot hs hp =>
    refine hc.extend (outboundOf_handOver _ s) ?_
    rw [outboundTail_of_no_eot (by simp [hs]) hp (by simp [(h.running hs rfl).noCause])]
    exact outboundTail_of_eot (by simp [hs, afterEot]) (.inl rfl)
  | readsAnswer hs hp =>
    refine hc.of_same (by simp) ?_
    rw [outboundTail_of_eot (by simp [hs]) (.inl hp)]
    exact outboundTail_of_eot nofun (.inr rfl)
  | releases => exact hc.of_same (by simp) (by simp [State.outboundTail])

/-- Settles O48: every act keeps the shape of the outbound stream, from a sound state (`act_keeps_outboundShape`). -/
theorem stepKeepsOutboundShape : Obligations.StepKeepsOutboundShape :=
  fun _ _ h hc hstep => keeps_of_act_of_inv (fun _ _ => act_keeps_outboundShape) h hstep hc

end Sys2Proof.Machine
end

section
/-! SUPPORT. The rows of the control bytes and of the outbound items, executed on their own (30_encoding.md R81 to R91). -/

namespace Sys2Proof.Machine

/-- R53, R155: a channel that takes all that is left of a frame lets it go out to its end. -/
theorem sendFrame_of_room {bs : List Byte} {s : State}
    (hroom : ∀ r, s.txReady = some r → bs.length - s.progress.sentSoFar ≤ r) :
    sendFrame bs s = (s.handOver (bs.drop s.progress.sentSoFar)).goto .awaitAck := by
  rcases sendFrame_cases bs s with e | ⟨m, _, hm, ht, _⟩ | ⟨h0, hlt, _⟩
  · exact e
  · exfalso
    cases hr : s.txReady with
    | none =>
      rw [hr, channelTakes_none] at ht
      omega
    | some r =>
      have := hroom r hr
      rw [hr, channelTakes_some] at ht
      omega
  · have := hroom 0 h0
    omega

/-- Settles O25: the row's second case (`execEot_cases`). -/
theorem eotRowSendsOneByte : Obligations.EotRowSendsOneByte := by
  intro s ht
  rcases execEot_cases s with ⟨h0, _⟩ | ⟨_, e⟩
  · exact absurd h0 ht
  · exact e

/-- Settles O30: each row is one transfer of control, on CAN with its cause. -/
theorem controlRowsTransferControl : Obligations.ControlRowsTransferControl :=
  fun _ _ => ⟨rfl, rfl, rfl, rfl⟩

/-- Settles O31: the row is the entry to `DONE` and does not look at its byte. -/
theorem eotAnswerCompletes : Obligations.EotAnswerCompletes :=
  fun _ _ => rfl

/-- Settles O35: the row is the emission of its frame, which the channel takes to its end (`sendFrame_of_room`). -/
theorem blockRowSendsLayout : Obligations.BlockRowSendsLayout := by
  intro s q c p k
  refine ⟨fun hp hroom => ?_, fun hp => if_neg hp⟩
  have hl : (frameBytes q c p k).length = 132 := by simp [hp]
  have e : exec (.block q c p k) s = .next (sendFrame (frameBytes q c p k) s) := if_pos hp
  rw [e, sendFrame_of_room (by rwa [hl])]
  simp [State.goto, State.handOver, frameBytes, hp]

end Sys2Proof.Machine
end

section
/-! SUPPORT. The checksum unit (40_checksum.md R110 to R115): the checksum turns concatenation into addition of bytes. -/

namespace Sys2Proof.Machine

@[simp] theorem checksumOf_nil : checksumOf [] = 0#8 := rfl

/-- R115 (f): the checksum of a concatenation is the sum of the parts'. -/
@[simp] theorem checksumOf_append (p q : List Byte) : checksumOf (p ++ q) = checksumOf p + checksumOf q := by
  simp [checksumOf, BitVec.ofNat_add]

@[simp] theorem checksumOf_cons (b : Byte) (p : List Byte) : checksumOf (b :: p) = b + checksumOf p := by
  simp [checksumOf, BitVec.ofNat_add]

/-- R110: the wrapping accumulator, from any value it has reached. -/
theorem foldl_add_eq_add_checksumOf (p : List Byte) (acc : Byte) :
    p.foldl (fun acc b => acc + b) acc = acc + checksumOf p := by
  induction p generalizing acc with
  | nil => simp
  | cons b p ih => rw [List.foldl_cons, ih, checksumOf_cons, BitVec.add_assoc]

/-- Settles O16: the accumulator starts at 0 (`foldl_add_eq_add_checksumOf`). -/
theorem checksumAccumulatorAgrees : Obligations.ChecksumAccumulatorAgrees := fun p => by
  rw [checksumAcc, foldl_add_eq_add_checksumOf, BitVec.zero_add]

/-- R115 (b): the order of the bytes does not matter. -/
theorem checksumOf_perm {p q : List Byte} (h : p.Perm q) : checksumOf p = checksumOf q := by
  rw [checksumOf, checksumOf, byteSum_eq_sum, byteSum_eq_sum, (h.map _).sum_nat]

/-- R115 (c): zero bytes at the end do not matter. -/
theorem toNat_checksumOf_zeros (d : List Byte) (n : Nat) :
    (checksumOf (d ++ List.replicate n 0x00#8)).toNat = (d.map BitVec.toNat).sum % 256 := by
  rw [toNat_checksumOf, byteSum_append, byteSum_replicate_zero, Nat.add_zero, byteSum_eq_sum]

/-- R115 (d): one byte changed by `delta` changes the checksum by `delta`. -/
theorem checksumOf_change (xs ys : List Byte) (b delta : Byte) :
    checksumOf (xs ++ (b + delta) :: ys) = checksumOf (xs ++ b :: ys) + delta := by
  simp only [checksumOf_append, checksumOf_cons]
  ac_rfl

/-- R115 (d): a change of one byte is detected. -/
theorem checksumOf_ne_of_ne (xs ys : List Byte) {b b' : Byte} (h : b ≠ b') :
    checksumOf (xs ++ b :: ys) ≠ checksumOf (xs ++ b' :: ys) := by
  simpa only [checksumOf_append, checksumOf_cons, ne_eq, BitVec.add_right_inj, BitVec.add_left_inj] using h

/-- R115 (d): one byte up by `k` and another down by `k` is not detected. -/
theorem checksumOf_cancel (xs ys zs : List Byte) (b c k : Byte) :
    checksumOf (xs ++ (b + k) :: ys ++ (c - k) :: zs) = checksumOf (xs ++ b :: ys ++ c :: zs) := by
  calc checksumOf (xs ++ (b + k) :: ys ++ (c - k) :: zs)
      = checksumOf (xs ++ b :: ys) + k + checksumOf ((c - k) :: zs) := by
        rw [checksumOf_append, checksumOf_change]
    _ = checksumOf (xs ++ b :: ys) + (c - k + k + checksumOf zs) := by
        rw [checksumOf_cons]
        ac_rfl
    _ = checksumOf (xs ++ b :: ys ++ c :: zs) := by
        rw [BitVec.sub_add_cancel, ← checksumOf_cons, ← checksumOf_append]

/-- R115 (e): bytes read as signed numbers give the same checksum. -/
theorem checksumOf_eq_ofInt_sum (p : List Byte) : checksumOf p = BitVec.ofInt 8 ((p.map BitVec.toInt).sum) := by
  induction p with
  | nil => rfl
  | cons b p ih => rw [checksumOf_cons, ih, List.map_cons, List.sum_cons, BitVec.ofInt_add, BitVec.ofInt_toInt]

/-- Settles O17: the range of a byte, and one lemma for each of the other laws. -/
theorem checksumLawsHold : Obligations.ChecksumLawsHold :=
  ⟨fun p => Nat.le_of_lt_succ (checksumOf p).isLt, fun _ _ => checksumOf_perm, toNat_checksumOf_zeros, checksumOf_change,
    fun xs ys _ _ => checksumOf_ne_of_ne xs ys, checksumOf_cancel, checksumOf_eq_ofInt_sum, checksumOf_append⟩

/-- R110: the checksum is the sum modulo 256 of the bytes read as natural numbers. -/
theorem checksumOf_eq_ofNat_sum (p : List Byte) :
    checksumOf p = BitVec.ofNat 8 ((p.map BitVec.toNat).sum % 256) :=
  BitVec.eq_of_toNat_eq (by simp [toNat_checksumOf, byteSum_eq_sum])

/-- Settles O15: the two branches of the row; its byte is the sum modulo 256 (`checksumOf_eq_ofNat_sum`). -/
theorem checksumRowSumsBytes : Obligations.ChecksumRowSumsBytes := by
  intro s p
  refine ⟨fun hp => ?_, fun hp => if_neg hp⟩
  have e : exec (.checksum8 p) s = .next (s.setReturned (checksumOf p)) := if_pos hp
  rw [e, checksumOf_eq_ofNat_sum]
  rfl

end Sys2Proof.Machine
end

section
/-! SUPPORT. The block framer (41_framer.md R120 to R129): what the rows `BUILD_BLOCK` and `OP_BUILD` answer, and what
stands in the buffer after a build. -/

namespace Sys2Proof.Machine

/-- The state a build leaves once the source has answered its read (R128). -/
def afterBuild (s : State) : State := buildFrom (srcAnswer s) (afterRead (s.srcReady.map (· - 1)) s)

section
variable (s : State)

@[simp] theorem afterBuild_state : (afterBuild s).state = s.state := by simp [afterBuild]
@[simp] theorem afterBuild_blockNumber : (afterBuild s).blockNumber = s.blockNumber := by simp [afterBuild]
@[simp] theorem afterBuild_fileOpen : (afterBuild s).fileOpen = s.fileOpen := by simp [afterBuild]
@[simp] theorem afterBuild_srcContent : (afterBuild s).srcContent = s.srcContent := by simp [afterBuild]
@[simp] theorem afterBuild_srcPos : (afterBuild s).srcPos = s.srcPos + (srcAnswer s).length := by simp [afterBuild]
@[simp] theorem afterBuild_srcShort : (afterBuild s).srcShort = s.srcShort.tail := by simp [afterBuild, afterRead]
@[simp] theorem afterBuild_srcReady : (afterBuild s).srcReady = s.srcReady.map (· - 1) := by
  simp [afterBuild, afterRead]
@[simp] theorem afterBuild_rx : (afterBuild s).rx = s.rx := by simp [afterBuild]
@[simp] theorem afterBuild_txReady : (afterBuild s).txReady = s.txReady := by simp [afterBuild, afterRead]
@[simp] theorem afterBuild_trace : (afterBuild s).trace = s.trace ++ [.srcRead (srcAnswer s)] := by simp [afterBuild]
@[simp] theorem afterBuild_eofFlag :
    (afterBuild s).eofFlag = (s.eofFlag || decide ((srcAnswer s).length < 128)) := by
  simp [afterBuild, State.eofAfter, eofSeen]

end

theorem buildBlock_eq_afterBuild {s : State} (hr : s.srcReady ≠ some 0) : buildBlock s = some (afterBuild s) := by
  rcases buildBlock_cases s with ⟨h0, _⟩ | ⟨r, hs, e⟩
  · exact absurd h0 hr
  · rw [e, spend_eq_map hs, afterBuild]

theorem execBuildBlock_of_ready {s : State} (hf : s.fileOpen = true) (hr : s.srcReady ≠ some 0) :
    execBuildBlock s = .next (afterBuild s) := by
  simp [execBuildBlock, hf, buildBlock_eq_afterBuild hr]

theorem execOpBuild_of_ready {s : State} (hf : s.fileOpen = true) (hr : s.srcReady ≠ some 0) :
    execOpBuild s = .next ((afterBuild s).goto .send) := by
  simp [execOpBuild, hf, buildBlock_eq_afterBuild hr]

/-- All that a build writes. -/
theorem afterBuild_eq (s : State) :
    afterBuild s = { s with
      currentBlock := (afterBuild s).currentBlock, eofFlag := s.eofFlag || decide ((srcAnswer s).length < 128),
      srcPos := s.srcPos + (srcAnswer s).length, srcShort := s.srcShort.tail, srcReady := s.srcReady.map (· - 1),
      trace := s.trace ++ [.srcRead (srcAnswer s)] } := by
  simp only [afterBuild, buildFrom, afterRead, State.log, State.setSrcReady, State.setSrcPos, State.setSrcShort,
    State.setCurrentBlock, State.setEofFlag, State.eofAfter, eofSeen, Config.payloadLen]

/-- R128: the buffer then holds the frame of the block number and the bytes read. -/
theorem readRange_afterBuild (s : State) :
    (afterBuild s).currentBlock.readRange 0 132 = builtFrame s.blockNumber (srcAnswer s) := by
  rw [afterBuild, buildFrom_currentBlock, readRange_eq_builtFrame (srcAnswer_length s), afterRead_blockNumber]

/-- R51: a build touches no offset above 131. -/
theorem read_afterBuild_of_ge (s : State) {a : Nat} (ha : 132 ≤ a) :
    (afterBuild s).currentBlock.read a = s.currentBlock.read a := by
  rw [afterBuild, buildFrom_currentBlock, read_assemble_fill_of_ge (srcAnswer_length s) _ _ ha,
    afterRead_currentBlock]

/-- Settles O18: both rows leave `afterBuild`, and `OP_BUILD` then goes to `SEND`. -/
theorem buildBlockLeavesFrame : Obligations.BuildBlockLeavesFrame := by
  intro s d hf hr hd
  obtain rfl : d = srcAnswer s := hd
  refine ⟨(afterBuild s).currentBlock, readRange_afterBuild s, fun _ => read_afterBuild_of_ge s, ?_, ?_⟩
  · rw [← afterBuild_eq]
    exact execBuildBlock_of_ready hf hr
  · refine (execOpBuild_of_ready hf hr).trans (congrArg _ ?_)
    conv_lhs => rw [afterBuild_eq, State.goto]

/-- Settles O19: the other branch of both rows. -/
theorem buildNeedsOpenSource : Obligations.BuildNeedsOpenSource := by
  intro s hf
  constructor
  · simp [exec, execBuildBlock, hf]
  · simp [exec, execOpBuild, hf]

/-- The row `BUILD_BLOCK`, when it has logged a read of `d`, has read at most 128 bytes and left the buffer assembled
from them. -/
theorem currentBlock_of_srcRead {s t : State} {d : List Byte} (h : exec .buildBlock s = .next t)
    (ht : t.trace = s.trace ++ [.srcRead d]) :
    d.length ≤ 128 ∧ t.currentBlock = assemble s.blockNumber (fillPayload d s.currentBlock) := by
  rcases execBuildBlock_cases s with ⟨_, e⟩ | ⟨_, _, e⟩ | ⟨r, _, _, e⟩
  · exact absurd (e.symm.trans h) nofun
  · obtain rfl := next_unique e h
    simp at ht
  · obtain rfl := next_unique e h
    obtain rfl : srcAnswer s = d := by simpa using ht
    exact ⟨srcAnswer_length s, by simp⟩

/-- R122: payload byte `i` of a built buffer is byte `i` of the padded data. -/
theorem read_assemble_fill_payload {d : List Byte} (hd : d.length ≤ 128) (bn : Byte) (m : Memory) {i : Nat}
    (hi : i < 128) : (assemble bn (fillPayload d m)).read (3 + i) = (padded d).getD i 0 := by
  rw [read_assemble, if_neg (by omega), if_neg (by omega), if_neg (by omega), if_neg (by omega),
    read_fillPayload hd, if_pos (by omega), Nat.add_sub_cancel_left]

/-- Settles O20: a payload byte is one of the padded data (`read_assemble_fill_payload`): of the data, or a pad byte. -/
theorem padBytesAreZero : Obligations.PadBytesAreZero := by
  intro s t d h ht
  obtain ⟨hd, hm⟩ := currentBlock_of_srcRead h ht
  refine ⟨hd, fun i hi => ?_, fun i hlo hi => ?_⟩ <;>
    rw [State.bufferByte, hm, read_assemble_fill_payload hd _ _ (by omega), padded]
  · rw [List.getD_append _ _ _ _ hi, List.getD_eq_getElem _ _ hi]
  · rw [List.getD_append_right _ _ _ _ hlo, List.getD_replicate _ (by simp; omega)]

/-- Settles O21: the four bytes `assemble` writes (`read_assemble`); the checksum is of the payload that stands in the
buffer (`readRange_payload_assemble`). -/
theorem builtFramesCheckOut : Obligations.BuiltFramesCheckOut := by
  intro s t d h ht
  obtain ⟨_, hm⟩ := currentBlock_of_srcRead h ht
  have hmarker : t.bufferByte 0 = Config.SOH := by rw [State.bufferByte, hm, read_assemble, if_pos rfl]
  have hseq : t.bufferByte 1 = sequenceByte s.blockNumber := by rw [State.bufferByte, hm, read_assemble]; rfl
  have hcompl : t.bufferByte 2 = complementByte (sequenceByte s.blockNumber) := by
    rw [State.bufferByte, hm, read_assemble]
    rfl
  have hsum : t.bufferByte 131 = checksumOf (t.currentBlock.readRange 3 128) := by
    rw [State.bufferByte, hm, readRange_payload_assemble, read_assemble]
    rfl
  refine ⟨hmarker, ?_, ?_, ?_⟩
  · rw [hseq, sequenceByte, BitVec.toNat_add]
    rfl
  · rw [hseq, hcompl, toNat_add_complementByte]
  · rw [hsum, toNat_checksumOf, byteSum_eq_sum]

/-- Settles O22: the readings differ only where a read of 128 bytes empties the source, and then `L` is `p + 128`. -/
theorem eofPoliciesAgreeOffMultiples : Obligations.EofPoliciesAgreeOffMultiples := by
  intro L p n hL hp hpL hn
  have hleft : ¬ n < 128 → L - (p + n) ≠ 0 := by omega
  by_cases hshort : n < 128
  · simp [eofSeen, hshort]
  · simp [eofSeen, hshort, hleft hshort]

end Sys2Proof.Machine
end

section
/-! SUPPORT. Every well-formed row answers a next state, but for a build of a source that is not open (60_exceptions.md
R186). -/

namespace Sys2Proof.Machine

theorem execOpInit_runs (s : State) : ∃ t, execOpInit s = .next t := by
  rcases execOpInit_cases s with ⟨_, e⟩ | ⟨_, _, e⟩ | ⟨_, _, _, _, e⟩ | ⟨_, _, _, _, e⟩ <;> exact ⟨_, e⟩

theorem execOpAwaitAck_runs (s : State) : ∃ t, execOpAwaitAck s = .next t := by
  rcases execOpAwaitAck_cases s with ⟨_, e⟩ | ⟨_, _, e⟩ | ⟨_, _, e⟩ | ⟨_, _, e⟩ | ⟨_, _, _, _, _, _, e⟩ <;>
    exact ⟨_, e⟩

theorem execOpAdvance_runs (s : State) : ∃ t, execOpAdvance s = .next t := by
  rcases execOpAdvance_cases s with ⟨_, e⟩ | ⟨_, e⟩ <;> exact ⟨_, e⟩

theorem eotAnswer_runs (s : State) : ∃ t, eotAnswer s = .next t := by
  rcases eotAnswer_cases s with ⟨_, e⟩ | ⟨_, _, _, e⟩ <;> exact ⟨_, e⟩

theorem execOpSendEot_runs (s : State) : ∃ t, execOpSendEot s = .next t := by
  rcases execOpSendEot_cases s with ⟨_, e⟩ | ⟨_, _, e⟩ | ⟨_, _, e⟩
  · exact e ▸ eotAnswer_runs s
  · exact ⟨_, e⟩
  · exact e ▸ eotAnswer_runs (afterEot s)

theorem execEot_runs (s : State) : ∃ t, execEot s = .next t := by
  rcases execEot_cases s with ⟨_, e⟩ | ⟨_, e⟩ <;> exact ⟨_, e⟩

theorem execAwaitByte_runs (s : State) : ∃ t, execAwaitByte s = .next t := by
  rcases execAwaitByte_cases s with ⟨_, e⟩ | ⟨_, _, _, e⟩ <;> exact ⟨_, e⟩

theorem execOpBuild_runs {s : State} (hf : s.fileOpen = true) : ∃ t, execOpBuild s = .next t := by
  rcases execOpBuild_cases s with ⟨h, _⟩ | ⟨_, _, e⟩ | ⟨_, _, _, e⟩
  · simp [hf] at h
  · exact ⟨_, e⟩
  · exact ⟨_, e⟩

theorem execBuildBlock_runs {s : State} (hf : s.fileOpen = true) : ∃ t, execBuildBlock s = .next t := by
  rcases execBuildBlock_cases s with ⟨h, _⟩ | ⟨_, _, e⟩ | ⟨_, _, _, e⟩
  · simp [hf] at h
  · exact ⟨_, e⟩
  · exact ⟨_, e⟩

/-- Settles O44: row by row; a build stops exactly where the source is not open (`buildNeedsOpenSource`). -/
theorem wellFormedRowsRun : Obligations.WellFormedRowsRun := by
  intro i s hwf
  cases i with
  | ack | nak | can | ignored | eotResponse | opSend | opDone | emit => exact .inl ⟨_, rfl⟩
  | block => exact .inl ⟨_, if_pos (length_of_wf_block hwf)⟩
  | checksum8 => exact .inl ⟨_, if_pos (beq_iff_eq.1 hwf)⟩
  | eot => exact .inl (execEot_runs s)
  | opInit => exact .inl (execOpInit_runs s)
  | opAwaitAck => exact .inl (execOpAwaitAck_runs s)
  | opAdvance => exact .inl (execOpAdvance_runs s)
  | opSendEot => exact .inl (execOpSendEot_runs s)
  | awaitByte => exact .inl (execAwaitByte_runs s)
  | opBuild =>
    cases hf : s.fileOpen with
    | false => exact .inr ⟨(buildNeedsOpenSource s hf).2, rfl, .inl rfl⟩
    | true => exact .inl (execOpBuild_runs hf)
  | buildBlock =>
    cases hf : s.fileOpen with
    | false => exact .inr ⟨(buildNeedsOpenSource s hf).1, rfl, .inr rfl⟩
    | true => exact .inl (execBuildBlock_runs hf)

end Sys2Proof.Machine
end

section
/-! SUPPORT. The rounds of a session whose source and channel answer at once (43_controller.md R151 to R157, R165). -/

namespace Sys2Proof.Machine

/-- A run goes on from the state its first part leaves. -/
theorem run_add {s u : State} {m : Nat} (n : Nat) (h : Sys2Proof.core.run m s = .next u) :
    Sys2Proof.core.run (m + n) s = Sys2Proof.core.run n u := by
  induction m generalizing s with
  | zero =>
    obtain rfl := Host.Outcome.next.inj h
    rw [Nat.zero_add]
  | succ m ih =>
    cases hv : step s with
    | next v =>
      rw [run_succ m hv] at h
      rw [Nat.succ_add, run_succ (m + n) hv, ih h]
    | fault r =>
      have hv' : Sys2Proof.core.step s = .fault r := hv
      simp [Host.Core.run, hv'] at h
    | refused r =>
      have hv' : Sys2Proof.core.step s = .refused r := hv
      simp [Host.Core.run, hv'] at h

/-! ## The steps of a round -/

/-- The unread byte `b` consumed, and control transferred (R152). -/
def afterByte (b : Byte) (rest : List Byte) (st : CtrlState) (s : State) : State :=
  ((s.setRx rest).log [.rx b]).goto st

theorem step_of_ack {s : State} {rest : List Byte} (hs : s.state = .awaitAck) (hx : s.rx = Config.ACK :: rest) :
    step s = .next (afterByte Config.ACK rest .advance s) := by
  simp [step_awaitAck hs, execOpAwaitAck, rxByte, hx, execAck, afterByte]

theorem step_of_nak {s : State} {rest : List Byte} (hs : s.state = .awaitAck) (hx : s.rx = Config.NAK :: rest) :
    step s = .next (afterByte Config.NAK rest .send s) := by
  simp [step_awaitAck hs, execOpAwaitAck, rxByte, hx, execNak, afterByte]

/-- The counter moved on to the next block (R153). -/
def afterCount (s : State) : State := (s.setBlockNumber (s.blockNumber + 1#8)).goto .build

theorem step_of_more {s : State} (hs : s.state = .advance) (he : s.eofFlag = false) : step s = .next (afterCount s) := by
  simp [step_advance hs, execOpAdvance, he, afterCount]

theorem step_of_end {s : State} (hs : s.state = .advance) (he : s.eofFlag = true) : step s = .next (s.goto .sendEot) := by
  simp [step_advance hs, execOpAdvance, he]

theorem step_of_build {s : State} (hs : s.state = .build) (hf : s.fileOpen = true) (hr : s.srcReady ≠ some 0) :
    step s = .next ((afterBuild s).goto .send) := by
  rw [step_build hs, execOpBuild_of_ready hf hr]

/-- The frame in the buffer sent from its first byte to its last (R155). -/
def afterFrame (s : State) : State := (s.handOver s.bufferBytes).goto .awaitAck

theorem step_of_send {s : State} (hs : s.state = .send) (hp : s.progress = .idle) (ht : s.txReady = none) :
    step s = .next (afterFrame s) := by
  rw [step_send hs, execOpSend, sendFrame_of_room (by simp [ht]), hp]
  rfl

theorem step_of_answer {s : State} {b : Byte} {rest : List Byte} (hs : s.state = .sendEot) (hp : s.progress = .idle)
    (ht : s.txReady = none) (hx : s.rx = b :: rest) :
    step s = .next ((((afterEot s).setRx rest).log [.rx b]).enterDone .complete) := by
  have hx' : (afterEot s).rx = b :: rest := hx
  rw [step_sendEot hs]
  rcases execOpSendEot_cases s with ⟨he, _⟩ | ⟨_, h0, _⟩ | ⟨_, _, e⟩
  · simp [hp] at he
  · simp [ht] at h0
  · rw [e, eotAnswer, rxByte, hx']
    rfl

theorem step_of_open_done {s : State} (hs : s.state = .done) (hf : s.fileOpen = true) : step s = .next s.release :=
  step_done hs (by simp [State.isFinal, hf])

/-- R151: the source opened, the first block built. -/
theorem step_of_init {s : State} (hs : s.state = .init) (hp : s.progress = .idle) (hr : s.srcReady = none)
    (ho : s.srcOpens = true) :
    step s = .next (((afterBuild (afterOpen none s)).setRawMode true).goto .awaitAck) := by
  have hr' : (afterOpen none s).srcReady ≠ some 0 := nofun
  have hb : initBuild (afterOpen none s) = ((afterBuild (afterOpen none s)).setRawMode true).goto .awaitAck := by
    rw [initBuild, buildBlock_eq_afterBuild hr']
  rw [step_init hs, ← hb]
  simp [execOpInit, hp, srcOpen, hr, ho, afterOpen]

/-! ## The rounds -/

/-- A rejection, and the frame sent (again). -/
theorem run_of_nak {s : State} {rest : List Byte} (hs : s.state = .awaitAck) (hx : s.rx = Config.NAK :: rest)
    (ht : s.txReady = none) :
    Sys2Proof.core.run 2 s = .next (afterFrame (afterByte Config.NAK rest .send s)) :=
  (run_succ 1 (step_of_nak hs hx)).trans (run_succ 0 (step_of_send rfl rfl ht))

/-- The next block built, the ACK that asks for it consumed. -/
def afterNextBuild (rest : List Byte) (s : State) : State :=
  (afterBuild (afterCount (afterByte Config.ACK rest .advance s))).goto .send

/-- An ACK, and the frame of the next block. -/
theorem run_of_ack_of_more {s : State} {rest : List Byte} (hs : s.state = .awaitAck) (hx : s.rx = Config.ACK :: rest)
    (he : s.eofFlag = false) (hf : s.fileOpen = true) (hr : s.srcReady = none) (ht : s.txReady = none) :
    Sys2Proof.core.run 4 s = .next (afterFrame (afterNextBuild rest s)) := by
  have hr' : (afterCount (afterByte Config.ACK rest .advance s)).srcReady ≠ some 0 := by
    simp [afterCount, afterByte, hr]
  have ht' : (afterNextBuild rest s).txReady = none := by simpa [afterNextBuild, afterCount, afterByte] using ht
  calc Sys2Proof.core.run 4 s
      = Sys2Proof.core.run 3 (afterByte Config.ACK rest .advance s) := run_succ 3 (step_of_ack hs hx)
    _ = Sys2Proof.core.run 2 (afterCount (afterByte Config.ACK rest .advance s)) := run_succ 2 (step_of_more rfl he)
    _ = Sys2Proof.core.run 1 (afterNextBuild rest s) := run_succ 1 (step_of_build rfl hf hr')
    _ = .next (afterFrame (afterNextBuild rest s)) :=
      run_succ 0 (step_of_send (State.goto_state _ _) (State.goto_progress _ _) ht')

/-- The session ended: the ACK consumed, the EOT sent, its answer consumed, all released. -/
def afterEnding (b : Byte) (rest : List Byte) (s : State) : State :=
  ((((afterEot ((afterByte Config.ACK (b :: rest) .advance s).goto .sendEot)).setRx rest).log
    [.rx b]).enterDone .complete).release

/-- An ACK, the EOT, and its answer. -/
theorem run_of_ack_of_end {s : State} {b : Byte} {rest : List Byte} (hs : s.state = .awaitAck)
    (hx : s.rx = Config.ACK :: b :: rest) (he : s.eofFlag = true) (hf : s.fileOpen = true) (ht : s.txReady = none) :
    Sys2Proof.core.run 4 s = .next (afterEnding b rest s) :=
  calc Sys2Proof.core.run 4 s
      = Sys2Proof.core.run 3 (afterByte Config.ACK (b :: rest) .advance s) := run_succ 3 (step_of_ack hs hx)
    _ = Sys2Proof.core.run 2 ((afterByte Config.ACK (b :: rest) .advance s).goto .sendEot) :=
      run_succ 2 (step_of_end rfl he)
    _ = Sys2Proof.core.run 1 _ := run_succ 1 (step_of_answer rfl rfl ht rfl)
    _ = .next (afterEnding b rest s) := run_succ 0 (step_of_open_done rfl hf)

end Sys2Proof.Machine
end

section
/-! SUPPORT. A whole session from reset, with a peer that asks, acknowledges every frame and answers the EOT
(41_framer.md R132; 43_controller.md R161, R165). -/

namespace Sys2Proof.Machine

/-- The first `n` frames of a source content, in order (R132). -/
def framesOf (source : List Byte) (n : Nat) : List Byte := ((List.range n).map (frameOf source)).flatten

theorem framesOf_one (source : List Byte) : framesOf source 1 = frameOf source 0 := by
  simp [framesOf]

theorem framesOf_succ (source : List Byte) (n : Nat) :
    framesOf source (n + 1) = framesOf source n ++ frameOf source n := by
  simp [framesOf, List.range_succ]

/-- R128, R132: the frame of block `k` is what a build with counter `k` makes of the bytes from `128 k` up. -/
theorem frameOf_eq_builtFrame (source : List Byte) (k : Nat) :
    frameOf source k = builtFrame (BitVec.ofNat 8 k) ((source.drop (128 * k)).take 128) := by
  simp only [frameOf, builtFrame, BitVec.ofNat_add]

/-- A source that keeps its contract and a channel, both answering at once, with the source open. -/
structure State.Serves (source : List Byte) (s : State) : Prop where
  isOpen : s.fileOpen = true
  sourceAnswers : s.srcReady = none
  channelTakes : s.txReady = none
  readsFull : s.srcShort = []
  content : s.srcContent = source

/-- All is set to build block `k`: every block before it was full. -/
structure State.SetForBlock (source : List Byte) (k : Nat) (s : State) : Prop extends s.Serves source where
  inSource : 128 * k ≤ source.length
  counter : s.blockNumber = BitVec.ofNat 8 k
  position : s.srcPos = 128 * k
  eofLow : s.eofFlag = false

/-- Block `k` is built. -/
structure State.HoldsBlock (source : List Byte) (k : Nat) (s : State) : Prop extends s.Serves source where
  frame : s.bufferBytes = frameOf source k
  counter : s.blockNumber = BitVec.ofNat 8 k
  position : s.srcPos = min source.length (128 * (k + 1))
  flag : s.eofFlag = decide (source.length < 128 * (k + 1))

/-- Block `k` and all before it are sent, and the peer's next bytes are `rest`. -/
structure State.HasSent (source : List Byte) (k : Nat) (rest : List Byte) (s : State) : Prop
    extends s.HoldsBlock source k where
  awaits : s.state = .awaitAck
  unread : s.rx = rest
  sent : outboundOf s.trace = framesOf source (k + 1)

namespace State.SetForBlock
variable {source : List Byte} {k : Nat} {s : State}

theorem srcAnswer_eq (h : s.SetForBlock source k) : srcAnswer s = (source.drop (128 * k)).take 128 := by
  simp [srcAnswer, h.readsFull, h.content, h.position]

/-- R123, R128: the build takes block `k`, and sets the flag where the source ends in it. -/
theorem build (h : s.SetForBlock source k) : (afterBuild s).HoldsBlock source k := by
  have hle := h.inSource
  have hlen : (srcAnswer s).length = min 128 (source.length - 128 * k) := by simp [h.srcAnswer_eq]
  exact {
    isOpen := by simpa using h.isOpen
    sourceAnswers := by simp [h.sourceAnswers]
    channelTakes := by simpa using h.channelTakes
    readsFull := by simp [h.readsFull]
    content := by simpa using h.content
    frame := by rw [frameOf_eq_builtFrame, ← h.srcAnswer_eq, ← h.counter]; exact readRange_afterBuild s
    counter := by simpa using h.counter
    position := by
      rw [afterBuild_srcPos, h.position, hlen]
      omega
    flag := by
      rw [afterBuild_eofFlag, h.eofLow, hlen, Bool.false_or, decide_eq_decide]
      omega }

end State.SetForBlock

namespace State.HoldsBlock
variable {source : List Byte} {k : Nat} {s : State}

theorem afterByte (h : s.HoldsBlock source k) (b : Byte) (rest : List Byte) (st : CtrlState) :
    (afterByte b rest st s).HoldsBlock source k :=
  { h with }

theorem goto (h : s.HoldsBlock source k) (st : CtrlState) : (s.goto st).HoldsBlock source k :=
  { h with }

theorem setRawMode (h : s.HoldsBlock source k) (v : Bool) : (s.setRawMode v).HoldsBlock source k :=
  { h with }

theorem afterFrame (h : s.HoldsBlock source k) : (afterFrame s).HoldsBlock source k :=
  { h with channelTakes := by simp [Machine.afterFrame, h.channelTakes] }

theorem outboundOf_afterFrame (h : s.HoldsBlock source k) :
    outboundOf (Machine.afterFrame s).trace = outboundOf s.trace ++ frameOf source k := by
  rw [← h.frame]
  exact outboundOf_handOver s.bufferBytes s

/-- R123: a full block leaves the flag 0. -/
theorem eofFlag_of_full (h : s.HoldsBlock source k) (hk : 128 * (k + 1) ≤ source.length) : s.eofFlag = false := by
  rw [h.flag, decide_eq_false (by omega)]

/-- R123: the last block sets the flag. -/
theorem eofFlag_of_last (h : s.HoldsBlock source k) (hk : source.length < 128 * (k + 1)) : s.eofFlag = true := by
  rw [h.flag, decide_eq_true hk]

/-- A full block `k` leaves all set for the next one once the counter has moved. -/
theorem count (h : s.HoldsBlock source k) (hk : 128 * (k + 1) ≤ source.length) :
    (afterCount s).SetForBlock source (k + 1) :=
  { h with
    inSource := hk
    counter := by simp [afterCount, h.counter, BitVec.ofNat_add]
    position := by simpa [afterCount, hk] using h.position
    eofLow := h.eofFlag_of_full hk }

end State.HoldsBlock

namespace State.HasSent
variable {source rest : List Byte} {k : Nat} {s : State}

/-- R161, R165: an ACK after a full block brings the next frame. -/
theorem run_ack (h : s.HasSent source k (Config.ACK :: rest)) (hk : 128 * (k + 1) ≤ source.length) :
    ∃ t : State, Sys2Proof.core.run 4 s = .next t ∧ t.HasSent source (k + 1) rest := by
  have he : s.eofFlag = false := h.eofFlag_of_full hk
  have hb : (afterNextBuild rest s).HoldsBlock source (k + 1) :=
    (((h.afterByte Config.ACK rest .advance).count hk).build).goto .send
  refine ⟨_, run_of_ack_of_more h.awaits h.unread he h.isOpen h.sourceAnswers h.channelTakes,
    { hb.afterFrame with awaits := rfl, unread := ?_, sent := ?_ }⟩
  · simp [afterFrame, afterNextBuild, afterCount, afterByte]
  · rw [hb.outboundOf_afterFrame, framesOf_succ, ← h.sent]
    simp [afterNextBuild, afterCount, afterByte, -List.append_assoc]

end State.HasSent

/-- R151, R89: from reset to the first frame out, on the peer's NAK. -/
theorem run_first_frame (source rest : List Byte) :
    ∃ t : State, Sys2Proof.core.run 3 (State.reset.withSession source true (Config.NAK :: rest)) = .next t ∧
      t.HasSent source 0 rest := by
  generalize hs : State.reset.withSession source true (Config.NAK :: rest) = s
  have hset : (afterOpen none s).SetForBlock source 0 := by
    subst hs
    exact ⟨⟨rfl, rfl, rfl, rfl, rfl⟩, Nat.zero_le _, rfl, rfl, rfl⟩
  have hinit : step s = .next (((afterBuild (afterOpen none s)).setRawMode true).goto .awaitAck) := by
    subst hs
    exact step_of_init rfl rfl rfl rfl
  have hrx : s.rx = Config.NAK :: rest := by rw [← hs]; rfl
  have hsent : outboundOf s.trace = [] := by rw [← hs]; rfl
  have hb := (hset.build.setRawMode true).goto .awaitAck
  have hsend := hb.afterByte Config.NAK rest .send
  refine ⟨_, (run_succ 2 hinit).trans (run_of_nak (State.goto_state _ _) (by simpa using hrx) hb.channelTakes),
    { hsend.afterFrame with awaits := rfl, unread := rfl, sent := ?_ }⟩
  rw [hsend.outboundOf_afterFrame, framesOf_one]
  simp [afterByte, hsent, -List.append_assoc]

/-- R161: `k` ACKs bring blocks 1 to `k`, for as long as the source lasts. -/
theorem run_frames (source : List Byte) {k : Nat} (hk : k ≤ source.length / 128) (rest : List Byte) :
    ∃ t : State, Sys2Proof.core.run (3 + 4 * k) (State.reset.withSession source true
        (Config.NAK :: (List.replicate k Config.ACK ++ rest))) = .next t ∧ t.HasSent source k rest := by
  induction k generalizing rest with
  | zero => exact run_first_frame source rest
  | succ k ih =>
    obtain ⟨u, hrun, hu⟩ := ih (by omega) (Config.ACK :: rest)
    obtain ⟨t, hround, ht⟩ := hu.run_ack (by omega)
    refine ⟨t, ?_, ht⟩
    rw [List.replicate_succ', List.append_assoc, List.singleton_append, Nat.mul_succ, ← Nat.add_assoc,
      run_add 4 hrun, hround]

theorem outboundOf_release (s : State) : outboundOf s.release.trace = outboundOf s.trace := by
  rw [release_trace, outboundOf_append, outboundOf_srcClose_if, List.append_nil]

@[simp] theorem outboundOf_tx (b : Byte) : outboundOf [.tx b] = [b] := rfl

section
variable (b : Byte) (rest : List Byte) (s : State)

@[simp] theorem afterEnding_isFinal : (afterEnding b rest s).isFinal = true := by simp [afterEnding, State.isFinal]
@[simp] theorem afterEnding_doneCause : (afterEnding b rest s).doneCause = .complete := by simp [afterEnding]
@[simp] theorem afterEnding_eofFlag : (afterEnding b rest s).eofFlag = s.eofFlag := by
  simp [afterEnding, afterEot, afterByte]
@[simp] theorem afterEnding_rx : (afterEnding b rest s).rx = rest := by simp [afterEnding]
@[simp] theorem afterEnding_blockNumber : (afterEnding b rest s).blockNumber = s.blockNumber := by
  simp [afterEnding, afterEot, afterByte]
@[simp] theorem afterEnding_srcPos : (afterEnding b rest s).srcPos = s.srcPos := by
  simp [afterEnding, afterEot, afterByte]

/-- The ending sends the EOT and no more. -/
theorem outboundOf_afterEnding : outboundOf (afterEnding b rest s).trace = outboundOf s.trace ++ [Config.EOT] := by
  rw [afterEnding, outboundOf_release]
  simp [afterEot, afterByte, -List.append_assoc]

end

/-- Settles O57: the frames, one ACK after another (`run_frames`), then the ending (`run_of_ack_of_end`). -/
theorem wholeSessionSendsSource : Obligations.WholeSessionSendsSource := by
  intro source answer
  obtain ⟨u, hrun, hu⟩ := run_frames source le_rfl [Config.ACK, answer]
  have he : u.eofFlag = true := hu.eofFlag_of_last (by omega)
  have hend := run_of_ack_of_end hu.awaits hu.unread he hu.isOpen hu.channelTakes
  refine ⟨afterEnding answer [] u, ?_, by simp, by simp, by simp [he], by simp, by simp [hu.counter], ?_, ?_⟩
  · calc Sys2Proof.core.run (4 * (source.length / 128 + 1) + 3) _
        = Sys2Proof.core.run (3 + 4 * (source.length / 128) + 4) _ := by
          rw [List.replicate_succ', List.append_assoc, List.singleton_append]
          congr 1
          omega
      _ = Sys2Proof.core.run 4 u := run_add 4 hrun
      _ = .next (afterEnding answer [] u) := hend
  · rw [afterEnding_srcPos, hu.position]
    omega
  · rw [outboundOf_afterEnding, hu.sent]
    rfl

end Sys2Proof.Machine
end

section
/-! SUPPORT. The link driver's rows and the waits of 42_link.md R143: an emission with room and one that stalls, and what a
held operation leaves for the step that goes on with it (log entries 1 and 2). -/

namespace Sys2Proof.Machine

/-! ## Emissions -/

/-- R53, R140: a channel that takes all that is left of an emission lets it go out to its end. -/
theorem emit_of_room {bs : List Byte} {s : State}
    (hroom : ∀ r, s.txReady = some r → bs.length - s.progress.sentSoFar ≤ r) :
    emit bs s = (true, (s.handOver (bs.drop s.progress.sentSoFar)).setProgress .idle) := by
  have hm : bs.length - s.progress.sentSoFar ≤ channelTakes s.txReady (bs.length - s.progress.sentSoFar) := by
    cases hr : s.txReady with
    | none => exact le_rfl
    | some r => exact le_min (hroom r hr) le_rfl
  rcases emit_cases bs s with e | ⟨m, _, hlt, rfl, _⟩ | ⟨h0, hlt, _⟩
  · exact e
  · omega
  · have := hroom 0 h0
    omega

/-- R143: what stands of an emission that the channel stalls after `r` more bytes. A stall before the first byte leaves
the mark as it was. -/
def afterStall (bs : List Byte) (r : Nat) (s : State) : State :=
  (s.handOver ((bs.drop s.progress.sentSoFar).take r)).setProgress
    (if r = 0 then s.progress else .sending (s.progress.sentSoFar + r))

theorem emit_of_stall {bs : List Byte} {s : State} {r : Nat} (hr : s.txReady = some r)
    (hlt : r < bs.length - s.progress.sentSoFar) : emit bs s = (false, afterStall bs r s) := by
  have hm : channelTakes s.txReady (bs.length - s.progress.sentSoFar) = r := by
    rw [hr]
    exact min_eq_left hlt.le
  rw [emit, hm, if_neg (by omega), afterStall]
  split <;> rfl

theorem sendFrame_of_stall {bs : List Byte} {s : State} {r : Nat} (hr : s.txReady = some r)
    (hlt : r < bs.length - s.progress.sentSoFar) : sendFrame bs s = afterStall bs r s := by
  rw [sendFrame, emit_of_stall hr hlt]

theorem exec_emit (bs : List Byte) (s : State) : exec (.emit bs) s = .next (emit bs s).2 := rfl

/-- Settles O23: an emission with room for the rest (`emit_of_room`), and one that stalls (`emit_of_stall`). -/
theorem emitSendsInOrder : Obligations.EmitSendsInOrder := by
  rintro s bs k rfl
  refine ⟨fun hroom => ?_, fun r hr hlt => ?_⟩
  · rw [exec_emit, emit_of_room hroom]
    simp [State.handOver, State.setProgress]
  · have hl : ((bs.drop s.progress.sentSoFar).take r).length = r := by
      rw [List.length_take, List.length_drop]
      exact min_eq_left hlt.le
    rw [exec_emit, emit_of_stall hr hlt]
    simp [afterStall, State.handOver, State.setProgress, hl, hr]

/-- Settles O24: the row's two cases, by whether a byte waits (`execAwaitByte_cases`). -/
theorem awaitByteTakesOldest : Obligations.AwaitByteTakesOldest := by
  intro s
  rcases execAwaitByte_cases s with ⟨hx, e⟩ | ⟨b, rest, hx, e⟩
  · exact ⟨fun b rest hb => by simp [hx] at hb, fun _ => e⟩
  · refine ⟨fun b' rest' hb => ?_, fun hn => by simp [hx] at hn⟩
    obtain ⟨rfl, rfl⟩ := List.cons.inj (hx.symm.trans hb)
    exact e

/-! ## A frame that stalls -/

theorem sentSoFar_afterStall (bs : List Byte) (r : Nat) (s : State) :
    (afterStall bs r s).progress.sentSoFar = s.progress.sentSoFar + r := by
  rw [afterStall, State.setProgress_progress]
  split
  · next h => rw [h, Nat.add_zero]
  · rfl

/-- R60, R143: what is out and what goes out after the stall are together all the bytes, in their order. -/
theorem handOver_rest_afterStall (bs : List Byte) (r : Nat) (st : CtrlState) (s : State) :
    (((afterStall bs r s).setTxReady none).handOver (bs.drop (afterStall bs r s).progress.sentSoFar)).goto st =
      ((s.setTxReady none).handOver (bs.drop s.progress.sentSoFar)).goto st := by
  have happ : (bs.drop s.progress.sentSoFar).take r ++ bs.drop (s.progress.sentSoFar + r) =
      bs.drop s.progress.sentSoFar := by
    rw [← List.drop_drop, List.take_append_drop]
  calc (((afterStall bs r s).setTxReady none).handOver (bs.drop (afterStall bs r s).progress.sentSoFar)).goto st
      = (((s.setTxReady none).handOver ((bs.drop s.progress.sentSoFar).take r)).handOver
          (bs.drop (s.progress.sentSoFar + r))).goto st := by rw [sentSoFar_afterStall]; rfl
    _ = ((s.setTxReady none).handOver (bs.drop s.progress.sentSoFar)).goto st := by rw [handOver_handOver, happ]

/-- R155: the rest of the frame sent, the channel taking every byte. -/
theorem step_of_send_rest {s : State} (hs : s.state = .send) (ht : s.txReady = none) :
    step s = .next ((s.handOver (s.bufferBytes.drop s.progress.sentSoFar)).goto .awaitAck) := by
  rw [step_send hs, execOpSend, sendFrame_of_room (by simp [ht])]

/-- Settles O26: the frame stalls (`sendFrame_of_stall`); with room again the rest of it goes out, and the state is the one
without the stall (`handOver_rest_afterStall`). -/
theorem stalledFrameGoesOn : Obligations.StalledFrameGoesOn := by
  intro s r hs hp hr hlt
  have hk : s.progress.sentSoFar = 0 := by rw [hp]; rfl
  have hl : s.bufferBytes.length = 132 := Memory.length_readRange _ _ _
  have hstall : step s = .next (afterStall s.bufferBytes r s) := by
    rw [step_send hs, execOpSend, sendFrame_of_stall hr (by rwa [hl, hk])]
  have hresume : step ((afterStall s.bufferBytes r s).receive (.channelRoom none)) =
      step (s.receive (.channelRoom none)) := by
    calc step ((afterStall s.bufferBytes r s).receive (.channelRoom none))
        = .next ((((afterStall s.bufferBytes r s).setTxReady none).handOver
            (s.bufferBytes.drop (afterStall s.bufferBytes r s).progress.sentSoFar)).goto .awaitAck) :=
          step_of_send_rest (s := (afterStall s.bufferBytes r s).setTxReady none) hs rfl
      _ = .next (((s.setTxReady none).handOver (s.bufferBytes.drop s.progress.sentSoFar)).goto .awaitAck) := by
          rw [handOver_rest_afterStall]
      _ = step (s.receive (.channelRoom none)) := (step_of_send_rest (s := s.setTxReady none) hs rfl).symm
  exact ⟨_, hstall, by simp [afterStall, hk], hs, rfl, rfl, rfl, rfl, rfl, rfl, rfl, hresume⟩

/-! ## A source that delays its first answer -/

/-- R151: an open that is answered `ok`. -/
theorem step_of_open {s : State} {r : Option Nat} (hs : s.state = .init) (hp : s.progress = .idle)
    (hr : spend s.srcReady = some r) (ho : s.srcOpens = true) : step s = .next (initBuild (afterOpen r s)) := by
  simp [step_init hs, execOpInit, hp, srcOpen, hr, ho, afterOpen]

/-- R151: once the source is open, `OP_INIT` goes on with the build. -/
theorem step_of_opened {s : State} (hs : s.state = .init) (hp : s.progress = .opened) : step s = .next (initBuild s) := by
  rw [step_init hs, execOpInit, if_pos hp]

theorem initBuild_of_wait {s : State} (hr : s.srcReady = some 0) : initBuild s = s := by
  rcases initBuild_cases s with ⟨_, e⟩ | ⟨r, hs, _⟩
  · exact e
  · simp [hr] at hs

/-- Settles O29: the open leaves the mark and the unit waits (`initBuild_of_wait`); the build then starts from the same
state as without the wait. -/
theorem waitInInitLosesNothing : Obligations.WaitInInitLosesNothing := by
  intro s hs hp ho hr
  have hwait : initBuild (afterOpen (some 0) s) = afterOpen (some 0) s := initBuild_of_wait rfl
  have hopen : step s = .next (afterOpen (some 0) s) := by
    rw [step_of_open hs hp (by rw [hr, spend_succ]) ho, hwait]
  have hheld : step (afterOpen (some 0) s) = .next (afterOpen (some 0) s) := by
    rw [step_of_opened (s := afterOpen (some 0) s) hs rfl, hwait]
  have hresume : step ((afterOpen (some 0) s).receive (.sourceReady none)) = step (s.receive (.sourceReady none)) := by
    calc step ((afterOpen (some 0) s).receive (.sourceReady none))
        = .next (initBuild (afterOpen none (s.setSrcReady none))) :=
          step_of_opened (s := (afterOpen (some 0) s).setSrcReady none) hs rfl
      _ = step (s.receive (.sourceReady none)) := (step_of_open (s := s.setSrcReady none) hs hp rfl ho).symm
  exact ⟨_, hopen, hs, rfl, rfl, rfl, rfl, rfl, hheld, hresume⟩

/-! ## A peer that does not answer the EOT -/

theorem step_of_eot {s : State} (hs : s.state = .sendEot) (hp : s.progress ≠ .eotSent) (ht : s.txReady ≠ some 0) :
    step s = eotAnswer (afterEot s) := by
  rcases execOpSendEot_cases s with ⟨he, _⟩ | ⟨_, h0, _⟩ | ⟨_, _, e⟩
  · exact absurd he hp
  · exact absurd h0 ht
  · rw [step_sendEot hs, e]

theorem step_of_eotSent {s : State} (hs : s.state = .sendEot) (hp : s.progress = .eotSent) : step s = eotAnswer s := by
  rw [step_sendEot hs, execOpSendEot, if_pos hp]

theorem eotAnswer_of_silence {s : State} (hx : s.rx = []) : eotAnswer s = .next s := by
  rw [eotAnswer, rxByte, hx]

theorem eotAnswer_of_byte {s : State} {b : Byte} {rest : List Byte} (hx : s.rx = b :: rest) :
    eotAnswer s = .next (((s.setRx rest).log [.rx b]).enterDone .complete) := by
  rw [eotAnswer, rxByte, hx]
  rfl

/-- R54: without a depth a byte goes behind the unread ones. -/
theorem rx_receive_peerSends {s : State} (hd : s.rxDepth = none) (b : Byte) :
    (s.receive (.peerSends b)).rx = s.rx ++ [b] := by
  simp [State.receive, rxAfter, hd]

/-- Settles O37: the EOT goes out and its answer is awaited (`step_of_eot`); from there a step only looks for the answer
(`step_of_eotSent`). -/
theorem sendEotHoldsUntilAnswer : Obligations.SendEotHoldsUntilAnswer := by
  intro s hs hp ht hx hd
  have hheld : eotAnswer (afterEot s) = .next (afterEot s) := eotAnswer_of_silence hx
  have hstep : step (afterEot s) = .next (afterEot s) := (step_of_eotSent (s := afterEot s) hs rfl).trans hheld
  refine ⟨_, (step_of_eot hs hp ht).trans hheld, rfl, hs, rfl, rfl, rfl, hstep, fun c => ?_⟩
  have hrx : ((afterEot s).receive (.peerSends c)).rx = [c] :=
    (rx_receive_peerSends (s := afterEot s) hd c).trans (congrArg (· ++ [c]) hx)
  have hdone := (step_of_eotSent (s := (afterEot s).receive (.peerSends c)) hs rfl).trans (eotAnswer_of_byte hrx)
  exact ⟨_, hdone, rfl, rfl, List.append_assoc s.trace [.tx Config.EOT] [.rx c], rfl⟩

end Sys2Proof.Machine
end

section
/-! SUPPORT. When a step moves the unit (42_link.md R143, 43_controller.md R159): a held or final unit's step answers the
state itself, and every act of a sound unit goes on in one direction. -/

namespace Sys2Proof.Machine

section
variable {s t : State}

/-! ## A unit that is held -/

theorem execOpInit_of_wait (hr : s.srcReady = some 0) : execOpInit s = .next s := by
  rcases execOpInit_cases s with ⟨_, e⟩ | ⟨_, _, e⟩ | ⟨r, _, h, _⟩ | ⟨r, _, h, _⟩
  · rw [e, initBuild_of_wait hr]
  · exact e
  · simp [hr] at h
  · simp [hr] at h

theorem execOpBuild_of_wait (hf : s.fileOpen = true) (hr : s.srcReady = some 0) : execOpBuild s = .next s := by
  rcases execOpBuild_cases s with ⟨h, _⟩ | ⟨_, _, e⟩ | ⟨r, _, h, _⟩
  · simp [hf] at h
  · exact e
  · simp [hr] at h

theorem execOpAwaitAck_of_silence (hx : s.rx = []) : execOpAwaitAck s = .next s := by
  rw [execOpAwaitAck, rxByte, hx]

theorem execOpSendEot_of_wait (hp : s.progress ≠ .eotSent) (ht : s.txReady = some 0) : execOpSendEot s = .next s := by
  rcases execOpSendEot_cases s with ⟨he, _⟩ | ⟨_, _, e⟩ | ⟨_, h, _⟩
  · exact absurd he hp
  · exact e
  · exact absurd ht h

/-- Part of a frame is never all of it. -/
theorem State.Inv.sentSoFar_lt (h : s.Inv) : s.progress.sentSoFar < 132 := by
  cases hp : s.progress with
  | sending k => exact (h.sendingInSend k hp).2.2
  | idle | opened | eotSent => simp [Progress.sentSoFar]

theorem execOpSend_of_wait (h : s.Inv) (ht : s.txReady = some 0) : execOpSend s = .next s := by
  have hl : s.bufferBytes.length = 132 := Memory.length_readRange _ _ _
  have hk := h.sentSoFar_lt
  rw [execOpSend, sendFrame_of_stall ht (by rw [hl]; omega), afterStall, if_pos rfl, List.take_zero, handOver_nil]
  rfl

/-- R143, R159: a sound unit that cannot act stays as it is (log entry 1). -/
theorem step_of_held (h : s.Inv) (hc : s.canAct = false) : step s = .next s := by
  unfold State.canAct at hc
  cases hs : s.state with
  | init =>
    rw [step_init hs]
    exact execOpInit_of_wait (by simpa [hs, State.srcAnswers] using hc)
  | awaitAck =>
    rw [step_awaitAck hs]
    exact execOpAwaitAck_of_silence (by simpa [hs, State.rxWaiting] using hc)
  | advance => simp [hs] at hc
  | build =>
    rw [step_build hs]
    exact execOpBuild_of_wait (h.running hs rfl).isOpen (by simpa [hs, State.srcAnswers] using hc)
  | send =>
    rw [step_send hs]
    exact execOpSend_of_wait h (by simpa [hs, State.txTakes] using hc)
  | sendEot =>
    by_cases hp : s.progress = .eotSent
    · rw [step_of_eotSent hs hp]
      exact eotAnswer_of_silence (by simpa [hs, hp, State.rxWaiting] using hc)
    · rw [step_sendEot hs]
      exact execOpSendEot_of_wait hp (by simpa [hs, hp, State.txTakes] using hc)
  | done => exact step_final (by simpa [hs] using hc)

/-! ## A unit that can act -/

/-- R186: a sound unit's step answers a next state. -/
theorem State.Inv.step_runs (h : s.Inv) : ∃ t, step s = .next t := by
  cases hs : s.state with
  | init => exact step_init hs ▸ execOpInit_runs s
  | awaitAck => exact step_awaitAck hs ▸ execOpAwaitAck_runs s
  | advance => exact step_advance hs ▸ execOpAdvance_runs s
  | build => exact step_build hs ▸ execOpBuild_runs (h.running hs rfl).isOpen
  | send => exact ⟨_, step_send hs⟩
  | sendEot => exact step_sendEot hs ▸ execOpSendEot_runs s
  | done =>
    cases hf : s.isFinal with
    | true => exact ⟨s, step_final hf⟩
    | false => exact ⟨_, step_done hs hf⟩

/-- A number that every act of a sound unit raises: twice the port events so far, and one more outside `ADVANCE`, which is
left with no port event. -/
def State.moves (s : State) : Nat := 2 * s.trace.length + if s.state = .advance then 0 else 1

theorem act_raises_moves (ha : Act s t) (h : s.Inv) : s.moves < t.moves := by
  cases ha with
  | openFails hs | opens hs | buildsFirst hs | readsCan hs | readsNak hs | readsOther hs | ends hs | counts hs
  | builds hs | readsAnswer hs => simp [State.moves, hs]
  | readsAck hs =>
    simp [State.moves, hs]
    omega
  | sends hs =>
    have hk := h.sentSoFar_lt
    simp [State.moves, hs, hk]
  | stalls hs h0 hm =>
    simp [State.moves, hs, h0]
    omega
  | sendsEot hs => simp [State.moves, hs, afterEot]
  | releases hs hf =>
    have hopen : s.fileOpen = true := by
      simpa [State.isFinal, hs, (h.done hs).rawFollowsOpen] using hf
    simp [State.moves, hs, hopen]

end

/-- Settles O41: a unit that cannot act is held (`step_of_held`); one that can does an act or two, and each raises the number
of its moves (`act_raises_moves`), so it cannot come back to where it was. -/
theorem unitMovesExactlyWhenItCan : Obligations.UnitMovesExactlyWhenItCan := by
  intro s h
  constructor
  · intro hc
    obtain ⟨t, ht⟩ := h.step_runs
    have hlt : s.moves < t.moves := by
      rcases steps_of_step ht with ⟨hn, _⟩ | ha | ⟨u, ha, hb⟩
      · simp [hc] at hn
      · exact act_raises_moves ha h
      · exact (act_raises_moves ha h).trans (act_raises_moves hb (act_keeps_inv ha h))
    exact ⟨t, ht, fun he => hlt.ne (he ▸ rfl)⟩
  · rintro ⟨t, ht, hne⟩
    cases hc : s.canAct with
    | true => rfl
    | false => exact absurd (next_unique ht (step_of_held h hc)) hne

end Sys2Proof.Machine
end

section
/-! SUPPORT. Which port events a step has (42_link.md R145, 20_memory.md R58, R59). -/

namespace Sys2Proof.Machine

/-- The port events that one step from `s` can have, in their order (R151 to R157). -/
inductive StepEvents (s : State) : List Event → Prop
  | silent : StepEvents s []
  | openFails (hs : s.state = .init) : StepEvents s [.srcOpenFail]
  | opens (hs : s.state = .init) : StepEvents s [.srcOpenOk]
  | opensAndReads (hs : s.state = .init) (d : List Byte) : StepEvents s [.srcOpenOk, .srcRead d]
  | reads (hs : s.state = .init ∨ s.state = .build) (d : List Byte) : StepEvents s [.srcRead d]
  | receives (hs : s.state = .awaitAck ∨ s.state = .sendEot) (b : Byte) : StepEvents s [.rx b]
  | sends (hs : s.state = .send) {bs : List Byte} (hl : bs.length ≤ 132) : StepEvents s (bs.map .tx)
  | sendsEot (hs : s.state = .sendEot) : StepEvents s [.tx Config.EOT]
  | sendsEotAndReceives (hs : s.state = .sendEot) (b : Byte) : StepEvents s [.tx Config.EOT, .rx b]
  | closes (hs : s.state = .done) (hf : s.fileOpen = true) : StepEvents s [.srcClose]

/-- R12, R54: the trace went on by `es`, and the bytes those consumed were the oldest unread ones. -/
structure AddsEvents (es : List Event) (s t : State) : Prop where
  trace : t.trace = s.trace ++ es
  unread : s.rx = inboundOf es ++ t.rx

section
variable {s t : State} {es : List Event}

/-- Events that consume no inbound byte. -/
theorem AddsEvents.of_no_rx (hi : inboundOf es = []) (ht : t.trace = s.trace ++ es) (hx : t.rx = s.rx) : AddsEvents es s t :=
  ⟨ht, by rw [hi, List.nil_append, hx]⟩

theorem AddsEvents.none (s : State) : AddsEvents [] s s := .of_no_rx rfl (List.append_nil _).symm rfl

theorem events_opInit (hs : s.state = .init) (h : execOpInit s = .next t) : ∃ es, StepEvents s es ∧ AddsEvents es s t := by
  rcases execOpInit_cases s with ⟨_, e⟩ | ⟨_, _, e⟩ | ⟨r, _, _, _, e⟩ | ⟨r, _, _, _, e⟩ <;> obtain rfl := next_unique e h
  · rcases initBuild_cases s with ⟨_, e⟩ | ⟨r, _, e⟩ <;> rw [e]
    · exact ⟨_, .silent, .none s⟩
    · exact ⟨_, .reads (.inl hs) (srcAnswer s), .of_no_rx rfl (by simp) (by simp)⟩
  · exact ⟨_, .silent, .none s⟩
  · rcases initBuild_cases (afterOpen r s) with ⟨_, e⟩ | ⟨r', _, e⟩ <;> rw [e]
    · exact ⟨_, .opens hs, .of_no_rx rfl (by simp) (by simp)⟩
    · exact ⟨_, .opensAndReads hs (srcAnswer (afterOpen r s)), .of_no_rx rfl (by simp) (by simp)⟩
  · exact ⟨_, .openFails hs, .of_no_rx rfl (by simp) (by simp)⟩

theorem events_opAwaitAck (hs : s.state = .awaitAck) (h : execOpAwaitAck s = .next t) :
    ∃ es, StepEvents s es ∧ AddsEvents es s t := by
  rcases execOpAwaitAck_cases s with ⟨_, e⟩ | ⟨rest, hr, e⟩ | ⟨rest, hr, e⟩ | ⟨rest, hr, e⟩ |
      ⟨b, rest, _, _, _, hr, e⟩ <;>
    obtain rfl := next_unique e h
  · exact ⟨_, .silent, .none s⟩
  all_goals exact ⟨_, .receives (.inl hs) _, rfl, hr⟩

theorem events_opAdvance (h : execOpAdvance s = .next t) : ∃ es, StepEvents s es ∧ AddsEvents es s t := by
  rcases execOpAdvance_cases s with ⟨_, e⟩ | ⟨_, e⟩ <;> obtain rfl := next_unique e h
  all_goals exact ⟨_, .silent, .of_no_rx rfl (by simp) (by simp)⟩

theorem events_opBuild (hs : s.state = .build) (h : execOpBuild s = .next t) : ∃ es, StepEvents s es ∧ AddsEvents es s t := by
  rcases execOpBuild_cases s with ⟨_, e⟩ | ⟨_, _, e⟩ | ⟨r, _, _, e⟩
  · exact absurd (e.symm.trans h) nofun
  · obtain rfl := next_unique e h
    exact ⟨_, .silent, .none s⟩
  · obtain rfl := next_unique e h
    exact ⟨_, .reads (.inr hs) (srcAnswer s), .of_no_rx rfl (by simp) (by simp)⟩

theorem events_opSend (hs : s.state = .send) (h : execOpSend s = .next t) : ∃ es, StepEvents s es ∧ AddsEvents es s t := by
  have hl : s.bufferBytes.length = 132 := Memory.length_readRange _ _ _
  obtain rfl := Host.Outcome.next.inj h
  rcases sendFrame_cases s.bufferBytes s with e | ⟨m, _, _, _, e⟩ | ⟨_, _, e⟩ <;> rw [e]
  · exact ⟨_, .sends hs (by rw [List.length_drop]; omega), .of_no_rx (inboundOf_map_tx _) rfl rfl⟩
  · exact ⟨_, .sends hs (by rw [List.length_take, List.length_drop]; omega), .of_no_rx (inboundOf_map_tx _) rfl rfl⟩
  · exact ⟨_, .silent, .none s⟩

theorem events_opSendEot (hs : s.state = .sendEot) (h : execOpSendEot s = .next t) :
    ∃ es, StepEvents s es ∧ AddsEvents es s t := by
  rcases execOpSendEot_cases s with ⟨_, e⟩ | ⟨_, _, e⟩ | ⟨_, _, e⟩
  · rcases eotAnswer_cases s with ⟨_, e'⟩ | ⟨b, rest, hr, e'⟩ <;> obtain rfl := next_unique (e.trans e') h
    · exact ⟨_, .silent, .none s⟩
    · exact ⟨_, .receives (.inr hs) b, rfl, hr⟩
  · obtain rfl := next_unique e h
    exact ⟨_, .silent, .none s⟩
  · rcases eotAnswer_cases (afterEot s) with ⟨_, e'⟩ | ⟨b, rest, hr, e'⟩ <;> obtain rfl := next_unique (e.trans e') h
    · exact ⟨_, .sendsEot hs, .of_no_rx rfl rfl rfl⟩
    · exact ⟨_, .sendsEotAndReceives hs b, List.append_assoc _ _ _, hr⟩

theorem events_release (hs : s.state = .done) : ∃ es, StepEvents s es ∧ AddsEvents es s s.release := by
  cases hf : s.fileOpen with
  | true => exact ⟨_, .closes hs hf, .of_no_rx rfl (by simp [hf]) (by simp)⟩
  | false => exact ⟨_, .silent, .of_no_rx rfl (by simp [hf]) (by simp)⟩

/-- R145: all the port events a step can have, by the operation of its state. -/
theorem events_of_step (h : step s = .next t) : ∃ es, StepEvents s es ∧ AddsEvents es s t := by
  cases hs : s.state with
  | init => exact events_opInit hs (step_init hs ▸ h)
  | awaitAck => exact events_opAwaitAck hs (step_awaitAck hs ▸ h)
  | advance => exact events_opAdvance (step_advance hs ▸ h)
  | build => exact events_opBuild hs (step_build hs ▸ h)
  | send => exact events_opSend hs (step_send hs ▸ h)
  | sendEot => exact events_opSendEot hs (step_sendEot hs ▸ h)
  | done =>
    cases hf : s.isFinal with
    | true =>
      obtain rfl := next_unique (step_final hf) h
      exact ⟨_, .silent, .none s⟩
    | false =>
      obtain rfl := next_unique (step_done hs hf) h
      exact events_release hs

end

@[simp] theorem outboundOf_nil : outboundOf [] = [] := rfl
@[simp] theorem inboundOf_nil : inboundOf [] = [] := rfl

theorem outboundOf_cons (e : Event) (es : List Event) : outboundOf (e :: es) = e.txByte?.toList ++ outboundOf es := by
  cases e <;> rfl

theorem inboundOf_cons (e : Event) (es : List Event) : inboundOf (e :: es) = e.rxByte?.toList ++ inboundOf es := by
  cases e <;> rfl

/-- Settles O43: a step's events are one of the lists of `StepEvents` (`events_of_step`); each list is held to the bounds. -/
theorem portsUsedOnlyWhere : Obligations.PortsUsedOnlyWhere := by
  intro s t h
  obtain ⟨es, he, ht, hx⟩ := events_of_step h
  refine ⟨es, ht, ?_⟩
  rw [← hx]
  cases he with
  | silent => simp
  | openFails hs | opens hs | opensAndReads hs | sendsEot hs | sendsEotAndReceives hs =>
    simp [hs, outboundOf_cons, inboundOf_cons, Event.txByte?, Event.rxByte?]
  | reads hs | receives hs =>
    rcases hs with hs | hs <;> simp [hs, outboundOf_cons, inboundOf_cons, Event.txByte?, Event.rxByte?]
  | sends hs hl => simp [hs, hl]
  | closes hs hf => simp [hs, hf, outboundOf_cons, inboundOf_cons, Event.txByte?, Event.rxByte?]

end Sys2Proof.Machine
end

section
/-! SUPPORT. The shape of the trace (43_controller.md R165): what each act adds to it. -/

namespace Sys2Proof.Machine

/-! ## Whole rounds and a part of one -/

/-- The trace so far is whole rounds, then `part` of one (R165). -/
def State.InRound (part : List Event) (s : State) : Prop := ∃ p, IsOpenTrace p ∧ s.trace = p ++ part

theorem State.InRound.start {s t : State} (h : IsOpenTrace s.trace) {es : List Event} (ht : t.trace = s.trace ++ es) :
    t.InRound es :=
  ⟨s.trace, h, ht⟩

theorem State.InRound.extend {s t : State} {part es : List Event} (h : s.InRound part) (ht : t.trace = s.trace ++ es) :
    t.InRound (part ++ es) := by
  obtain ⟨p, hp, e⟩ := h
  exact ⟨p, hp, by rw [ht, e, List.append_assoc]⟩

/-- A part that is a whole round leaves the trace between two rounds. -/
theorem State.InRound.isOpenTrace {s : State} {part : List Event} (h : s.InRound part) (hr : IsRound part) :
    IsOpenTrace s.trace := by
  obtain ⟨_, ⟨d, rounds, hrounds, rfl⟩, e⟩ := h
  refine ⟨d, rounds ++ [part], ?_, by rw [e]; simp⟩
  intro r hm
  rcases List.mem_append.1 hm with hm | hm
  · exact hrounds r hm
  · exact List.mem_singleton.1 hm ▸ hr

/-- R151: the open and the first read. -/
theorem isOpenTrace_opened (d : List Byte) : IsOpenTrace [.srcOpenOk, .srcRead d] :=
  ⟨d, [], nofun, rfl⟩

/-- The events of a round that stand before its frame (R165). -/
def OpensFrame (cause : List Event) : Prop := cause = [.rx Config.NAK] ∨ ∃ d, cause = [.rx Config.ACK, .srcRead d]

theorem isRound_of_frame {cause : List Event} {f : List Byte} (hc : OpensFrame cause) (hf : IsFrame f) :
    IsRound (cause ++ f.map .tx) := by
  rcases hc with rfl | ⟨d, rfl⟩
  · exact .inr (.inl ⟨f, hf, rfl⟩)
  · exact .inr (.inr ⟨d, f, hf, rfl⟩)

/-- R165, R181: the failed open alone. -/
theorem isCompleteTrace_openFail : IsCompleteTrace [.srcOpenFail] .sourceUnavailable := .inl ⟨rfl, rfl⟩

theorem isCompleteTrace_cancel {p : List Event} (h : IsOpenTrace p) :
    IsCompleteTrace (p ++ [.rx Config.CAN, .srcClose]) .peerCancelled := by
  obtain ⟨d, rounds, hr, rfl⟩ := h
  exact .inr ⟨d, rounds, hr, .inr ⟨rfl, rfl⟩⟩

theorem isCompleteTrace_ending {p : List Event} (h : IsOpenTrace p) (b : Byte) :
    IsCompleteTrace (p ++ [.rx Config.ACK, .tx Config.EOT, .rx b, .srcClose]) .complete := by
  obtain ⟨d, rounds, hr, rfl⟩ := h
  exact .inr ⟨d, rounds, hr, .inl ⟨rfl, b, rfl⟩⟩

/-! ## The trace so far, by state -/

section
variable {s : State}

theorem traceSoFar_of_init (hs : s.state = .init) :
    s.TraceSoFar ↔ s.trace = if s.progress = .opened then [.srcOpenOk] else [] := by
  simp only [State.TraceSoFar, hs]

theorem traceSoFar_of_awaitAck (hs : s.state = .awaitAck) : s.TraceSoFar ↔ IsOpenTrace s.trace := by
  simp only [State.TraceSoFar, hs]

theorem traceSoFar_of_ack (hs : s.state = .advance ∨ s.state = .build) :
    s.TraceSoFar ↔ s.InRound [.rx Config.ACK] := by
  rcases hs with hs | hs <;> simp only [State.TraceSoFar, hs, State.InRound]

theorem traceSoFar_of_send (hs : s.state = .send) :
    s.TraceSoFar ↔ ∃ cause, OpensFrame cause ∧
      s.InRound (cause ++ (s.bufferBytes.take s.progress.sentSoFar).map Event.tx) := by
  simp only [State.TraceSoFar, hs, State.InRound, OpensFrame]
  constructor
  · rintro ⟨p, cause, hp, hc, e⟩
    exact ⟨cause, hc, p, hp, by rw [e, List.append_assoc]⟩
  · rintro ⟨cause, hc, p, hp, e⟩
    exact ⟨p, cause, hp, hc, by rw [e, List.append_assoc]⟩

theorem traceSoFar_of_sendEot (hs : s.state = .sendEot) :
    s.TraceSoFar ↔ s.InRound ([.rx Config.ACK] ++ if s.progress = .eotSent then [.tx Config.EOT] else []) := by
  simp only [State.TraceSoFar, hs, State.InRound, List.append_assoc]

theorem traceSoFar_of_done (hs : s.state = .done) :
    s.TraceSoFar ↔ IsCompleteTrace (s.trace ++ if s.fileOpen then [.srcClose] else []) s.doneCause := by
  simp only [State.TraceSoFar, hs]

/-- A session that is final has closed its source. -/
theorem State.TraceSoFar.isCompleteTrace (h : s.TraceSoFar) (hf : s.isFinal = true) :
    IsCompleteTrace s.trace s.doneCause := by
  simp only [State.isFinal, Bool.and_eq_true, decide_eq_true_eq, Bool.not_eq_true'] at hf
  obtain ⟨⟨hs, ho⟩, _⟩ := hf
  simpa [ho] using (traceSoFar_of_done hs).1 h

end

/-! ## The trace after an act -/

theorem act_keeps_traceSoFar {s t : State} (ha : Act s t) (h : s.Inv) (hc : s.TraceSoFar) : t.TraceSoFar := by
  cases ha with
  | openFails hs hp =>
    have hf : s.fileOpen = false := Bool.eq_false_of_not_eq_true (mt (h.init hs).openIffOpened.1 hp)
    have hn : s.trace = [] := by simpa [hp] using (traceSoFar_of_init hs).1 hc
    refine (traceSoFar_of_done rfl).2 ?_
    simpa [hf, hn] using isCompleteTrace_openFail
  | opens hs hp =>
    have hn : s.trace = [] := by simpa [hp] using (traceSoFar_of_init hs).1 hc
    refine (traceSoFar_of_init (by simpa using hs)).2 ?_
    simp [hn]
  | buildsFirst hs hp =>
    have ho : s.trace = [.srcOpenOk] := by simpa [hp] using (traceSoFar_of_init hs).1 hc
    refine (traceSoFar_of_awaitAck (State.goto_state _ _)).2 ?_
    simpa [ho] using isOpenTrace_opened (srcAnswer s)
  | readsCan hs =>
    have hf : s.fileOpen = true := (h.running hs rfl).isOpen
    refine (traceSoFar_of_done rfl).2 ?_
    simpa [hf] using isCompleteTrace_cancel ((traceSoFar_of_awaitAck hs).1 hc)
  | readsAck hs => exact (traceSoFar_of_ack (.inl rfl)).2 (.start ((traceSoFar_of_awaitAck hs).1 hc) rfl)
  | readsNak hs =>
    exact (traceSoFar_of_send rfl).2 ⟨_, .inl rfl, .start ((traceSoFar_of_awaitAck hs).1 hc) rfl⟩
  | @readsOther b rest hs h1 h2 h3 =>
    refine (traceSoFar_of_awaitAck rfl).2 (State.InRound.isOpenTrace (part := [.rx b]) ?_ ?_)
    · exact .start ((traceSoFar_of_awaitAck hs).1 hc) rfl
    · exact .inl ⟨b, h2, h3, h1, rfl⟩
  | ends hs => exact (traceSoFar_of_sendEot rfl).2 ((traceSoFar_of_ack (.inl hs)).1 hc)
  | counts hs => exact (traceSoFar_of_ack (.inr rfl)).2 ((traceSoFar_of_ack (.inl hs)).1 hc)
  | builds hs =>
    refine (traceSoFar_of_send (State.goto_state _ _)).2 ⟨_, .inr ⟨srcAnswer s, rfl⟩, ?_⟩
    refine ((traceSoFar_of_ack (.inr hs)).1 hc).extend ?_
    simp [Progress.sentSoFar]
  | sends hs =>
    obtain ⟨cause, hcause, hr⟩ := (traceSoFar_of_send hs).1 hc
    refine (traceSoFar_of_awaitAck rfl).2 (State.InRound.isOpenTrace (hr.extend rfl) ?_)
    rw [List.append_assoc, ← List.map_append, List.take_append_drop]
    exact isRound_of_frame hcause (h.running hs rfl).isFrame
  | @stalls m hs =>
    obtain ⟨cause, hcause, hr⟩ := (traceSoFar_of_send hs).1 hc
    refine (traceSoFar_of_send (by simpa using hs)).2 ⟨cause, hcause, ?_⟩
    change State.InRound (cause ++ (s.bufferBytes.take (s.progress.sentSoFar + m)).map .tx) _
    rw [List.take_add, List.map_append, ← List.append_assoc]
    exact hr.extend rfl
  | sendsEot hs hp =>
    have hr := (traceSoFar_of_sendEot hs).1 hc
    rw [if_neg hp] at hr
    exact (traceSoFar_of_sendEot (s := afterEot s) hs).2 (hr.extend rfl)
  | @readsAnswer b rest hs hp =>
    have hf : s.fileOpen = true := (h.running hs rfl).isOpen
    obtain ⟨p, hopen, e⟩ := (traceSoFar_of_sendEot hs).1 hc
    refine (traceSoFar_of_done rfl).2 ?_
    simpa [hf, e, hp] using isCompleteTrace_ending hopen b
  | releases hs =>
    refine (traceSoFar_of_done (by simpa using hs)).2 ?_
    simpa using (traceSoFar_of_done hs).1 hc

/-- Settles O59: every act keeps the trace the beginning of a shape of R165, from a sound state (`act_keeps_traceSoFar`);
that of a final state is whole (`State.TraceSoFar.isCompleteTrace`). -/
theorem stepKeepsTraceShape : Obligations.StepKeepsTraceShape := by
  intro s t h hc hstep
  have ht : t.TraceSoFar := keeps_of_act_of_inv (fun _ _ => act_keeps_traceSoFar) h hstep hc
  exact ⟨ht, ht.isCompleteTrace⟩

/-! ## Sessions -/

/-- What every input and every step keeps, a run keeps. -/
theorem keeps_of_runInputs {P : State → Prop} (hinput : ∀ s e, P s → P (s.receive e))
    (hstep : ∀ s t, step s = .next t → P s → P t) {es : List Input} {s t : State} (h : runInputs es s = .next t)
    (hs : P s) : P t := by
  induction es generalizing s with
  | nil => exact Host.Outcome.next.inj h ▸ hs
  | cons e es ih =>
    unfold runInputs at h
    split at h
    · next u hu => exact ih h (hstep _ _ hu (hinput s e hs))
    · cases h
    · cases h

/-- The start of a session from reset: the inputs of R36 as given, all else as reset leaves it. -/
def sessionStart (source : List Byte) (opens : Bool) (short : List Nat) (depth : Option Nat) (inbound : List Byte) :
    State :=
  { State.reset.withSession source opens inbound with srcShort := short, rxDepth := depth }

theorem inv_sessionStart (source : List Byte) (opens : Bool) (short : List Nat) (depth : Option Nat)
    (inbound : List Byte) : (sessionStart source opens short depth inbound).Inv :=
  State.InvInit.inv { invInit_reset with } rfl

/-- Settles O52: the trace keeps its shape from reset on, whatever comes in (`keeps_of_runInputs`). -/
theorem completeTracesHaveShape : Obligations.CompleteTracesHaveShape := by
  intro source opens short depth inbound es t hrun hfinal
  have hinput : ∀ (s : State) (e : Input), s.Inv ∧ s.TraceSoFar → (s.receive e).Inv ∧ (s.receive e).TraceSoFar := by
    rintro s e ⟨hi, hc⟩
    obtain ⟨hi', _, _, _, _, hkeeps⟩ := inputKeepsInvariant s e hi
    exact ⟨hi', hkeeps hc⟩
  have hstep : ∀ s u : State, step s = .next u → s.Inv ∧ s.TraceSoFar → u.Inv ∧ u.TraceSoFar :=
    fun s u h ⟨hi, hc⟩ => ⟨stepKeepsInvariant s u hi h, (stepKeepsTraceShape s u hi hc h).1⟩
  obtain ⟨_, ht⟩ := keeps_of_runInputs (P := fun s => s.Inv ∧ s.TraceSoFar) hinput hstep hrun
    ⟨inv_sessionStart source opens short depth inbound, rfl⟩
  exact ht.isCompleteTrace hfinal

end Sys2Proof.Machine
end

section
/-! SUPPORT. The block counter against the ACKs read (43_controller.md R161). -/

namespace Sys2Proof.Machine

@[simp] theorem acksIn_srcOpenOk : acksIn [.srcOpenOk] = 0 := rfl
@[simp] theorem acksIn_srcRead (d : List Byte) : acksIn [.srcRead d] = 0 := rfl
@[simp] theorem acksIn_ack : acksIn [.rx Config.ACK] = 1 := rfl
@[simp] theorem acksIn_nak : acksIn [.rx Config.NAK] = 0 := rfl

theorem acksIn_rx_of_ne {b : Byte} (h : b ≠ Config.ACK) : acksIn [.rx b] = 0 := by
  simpa [acksIn, Event.isAck] using h

/-- A hand-over reads no ACK. -/
theorem acksIn_handOver (bs : List Byte) (s : State) : acksIn (s.handOver bs).trace = acksIn s.trace := by
  simp

/-! ## The count, by state -/

/-- The states in which the counter is the number of ACKs read. -/
def CtrlState.countsAcks (st : CtrlState) : Prop := st = .awaitAck ∨ st = .send ∨ st = .build

section
variable {s t : State}

theorem acksCountBlocks_of_init (hs : s.state = .init) : s.AcksCountBlocks ↔ acksIn s.trace = 0 := by
  simp [State.AcksCountBlocks, hs]

theorem acksCountBlocks_of_advance (hs : s.state = .advance) :
    s.AcksCountBlocks ↔ s.blockNumber + 1#8 = BitVec.ofNat 8 (acksIn s.trace) := by
  simp [State.AcksCountBlocks, hs]

theorem acksCountBlocks_of_counts (hs : s.state.countsAcks) :
    s.AcksCountBlocks ↔ s.blockNumber = BitVec.ofNat 8 (acksIn s.trace) := by
  rcases hs with hs | hs | hs <;> simp [State.AcksCountBlocks, hs]

/-- R161 says nothing of the counter once the last ACK is read. -/
theorem acksCountBlocks_of_ended (hs : s.state = .sendEot ∨ s.state = .done) : s.AcksCountBlocks := by
  rcases hs with hs | hs <;> simp [State.AcksCountBlocks, hs]

/-- A change that neither counts nor reads an ACK keeps the count. -/
theorem State.AcksCountBlocks.of_same (h : s.AcksCountBlocks) (hs : s.state.countsAcks) (ht : t.state.countsAcks)
    (hb : t.blockNumber = s.blockNumber) (ha : acksIn t.trace = acksIn s.trace) : t.AcksCountBlocks := by
  rw [acksCountBlocks_of_counts ht, hb, ha]
  exact (acksCountBlocks_of_counts hs).1 h

/-- R83, R161: the frame that stands to be sent has the sequence of the number of ACKs plus one. -/
theorem State.AcksCountBlocks.sequence_of_send (h : s.AcksCountBlocks) (hi : s.Inv) (hs : s.state = .send) :
    s.bufferByte 1 = BitVec.ofNat 8 (acksIn s.trace + 1) := by
  have hb : s.blockNumber = BitVec.ofNat 8 (acksIn s.trace) := (acksCountBlocks_of_counts (.inr (.inl hs))).1 h
  have hq : s.bufferByte 1 = s.blockNumber + 1#8 := ((hi.running hs rfl).frame_of_ne_build (by simp [hs])).sequence
  rw [hq, hb, BitVec.ofNat_add]

end

/-! ## The count after an act -/

theorem act_keeps_acksCountBlocks {s t : State} (ha : Act s t) (h : s.Inv) (hc : s.AcksCountBlocks) :
    t.AcksCountBlocks := by
  cases ha with
  | openFails | readsCan | readsAnswer => exact acksCountBlocks_of_ended (.inr rfl)
  | ends => exact acksCountBlocks_of_ended (.inl rfl)
  | sendsEot hs => exact acksCountBlocks_of_ended (.inl hs)
  | releases hs => exact acksCountBlocks_of_ended (.inr (by simpa using hs))
  | opens hs =>
    refine (acksCountBlocks_of_init (by simpa using hs)).2 ?_
    simpa using (acksCountBlocks_of_init hs).1 hc
  | buildsFirst hs =>
    refine (acksCountBlocks_of_counts (.inl (State.goto_state _ _))).2 ?_
    simp [(h.init hs).counterZero, (acksCountBlocks_of_init hs).1 hc]
  | readsAck hs =>
    refine (acksCountBlocks_of_advance rfl).2 ?_
    have hb := (acksCountBlocks_of_counts (.inl hs)).1 hc
    simp [hb, BitVec.ofNat_add]
  | readsNak hs => exact hc.of_same (.inl hs) (.inr (.inl rfl)) rfl (by simp)
  | readsOther hs _ hb => exact hc.of_same (.inl hs) (.inl rfl) rfl (by simp [acksIn_rx_of_ne hb])
  | counts hs =>
    refine (acksCountBlocks_of_counts (.inr (.inr rfl))).2 ?_
    exact (acksCountBlocks_of_advance hs).1 hc
  | builds hs => exact hc.of_same (.inr (.inr hs)) (.inr (.inl (State.goto_state _ _))) (by simp) (by simp)
  | sends hs => exact hc.of_same (.inr (.inl hs)) (.inl rfl) rfl (acksIn_handOver _ s)
  | stalls hs => exact hc.of_same (.inr (.inl hs)) (.inr (.inl hs)) rfl (acksIn_handOver _ s)

/-- Settles O50: every act keeps the count of the ACKs, from a sound state (`act_keeps_acksCountBlocks`); in `SEND` the
sequence byte is one more (`State.AcksCountBlocks.sequence_of_send`). -/
theorem stepKeepsAckCount : Obligations.StepKeepsAckCount := by
  intro s t h hc hstep
  have ht : t.AcksCountBlocks := keeps_of_act_of_inv (fun _ _ => act_keeps_acksCountBlocks) h hstep hc
  exact ⟨ht, ht.sequence_of_send (stepKeepsInvariant s t h hstep)⟩

end Sys2Proof.Machine
end

section
/-! SUPPORT. Which row a step runs, and what the rows of the seven states do where nothing makes the unit wait
(43_controller.md R151 to R159, R163). -/

namespace Sys2Proof.Machine

/-! ## The row a step runs -/

theorem setWidth_code_eq_ofNat (st : CtrlState) : st.code.setWidth 8 = BitVec.ofNat 8 st.code.toNat := by
  cases st <;> rfl

/-- R92: the byte of a state's code is read as the operation the state selects. -/
theorem decode_stateReg_code (s : State) :
    decode .stateReg [BitVec.ofNat 8 s.state.code.toNat] = .instr (fetch s) [] := by
  have hwf : s.state.operation.wf = true := by cases s.state <;> rfl
  rw [fetch_eq_operation, ← setWidth_code_eq_ofNat]
  exact decodeOfEncode _ _ _ [] hwf (encode_operation s.state)

theorem step_of_not_final {s : State} (hf : s.isFinal = false) : step s = exec (fetch s) s := by
  rw [step, hf]
  rfl

/-- Settles O11: only a unit in `DONE` can be final, and any other runs what its state's code decodes to. -/
theorem stepRunsStateOperation : Obligations.StepRunsStateOperation := by
  intro s hdone
  have hf : s.isFinal = false := by
    by_cases hs : s.state = .done
    · exact hdone hs
    · exact isFinal_of_ne_done hs
  exact ⟨step_of_not_final hf, decode_stateReg_code s⟩

theorem rxByte_of_cons {s : State} {c : Byte} {rest : List Byte} (hx : s.rx = c :: rest) :
    rxByte s = some (c, (s.setRx rest).log [.rx c]) := by
  rw [rxByte, hx]

/-- R89, R152: with a byte waiting, `OP_AWAIT_ACK` is the row the byte decodes to, once it is consumed. -/
theorem execOpAwaitAck_of_byte {s : State} {c : Byte} {rest : List Byte} (hx : s.rx = c :: rest) :
    execOpAwaitAck s = exec (decodeCtrlIn c) ((s.setRx rest).log [.rx c]) := by
  rw [execOpAwaitAck, rxByte_of_cons hx]
  rcases decodeCtrlIn_cases c with ⟨rfl, e⟩ | ⟨rfl, e⟩ | ⟨rfl, e⟩ | ⟨h1, h2, h3, e⟩ <;> rw [e]
  · rfl
  · rfl
  · rfl
  · simp only [if_neg h1, if_neg h2, if_neg h3]
    rfl

/-- Settles O12: the operation of `AWAIT_ACK` is the row of its byte (`execOpAwaitAck_of_byte`). -/
theorem stepRunsControlByte : Obligations.StepRunsControlByte := by
  intro s c rest hs hx
  rw [step_awaitAck hs, execOpAwaitAck_of_byte hx]
  rfl

/-- Settles O13: the buffer is the layout of the `BLOCK` it decodes to (`eq_of_decodeOutbound`), and both send it. -/
theorem stepRunsFrameInBuffer : Obligations.StepRunsFrameInBuffer := by
  intro s q c p k hs hp hdecode
  have hbuf : s.bufferBytes = frameBytes q c p k := by
    rcases eq_of_decodeOutbound (bs := s.bufferBytes) hdecode with ⟨h, _⟩ | ⟨q', c', p', k', h, e⟩
    · cases h
    · cases h
      rw [e, List.append_nil]
  calc step s = .next (sendFrame s.bufferBytes s) := step_send hs
    _ = .next (sendFrame (frameBytes q c p k) s) := by rw [hbuf]
    _ = exec (.block q c p k) s := (if_pos hp).symm

/-- Settles O14: an answer that has not come ends the step after the row `EOT` (`execEot_cases`); one that has is consumed
by the row `EOT_RESPONSE` (`eotAnswer_of_byte`). -/
theorem stepRunsEotAndAnswer : Obligations.StepRunsEotAndAnswer := by
  intro s hs
  refine ⟨fun hp hx => ?_, fun c rest hp hx => ?_⟩
  · change step s = execEot s
    rcases execEot_cases s with ⟨ht, e⟩ | ⟨ht, e⟩
    · rw [e, step_sendEot hs, execOpSendEot_of_wait hp ht]
    · rw [e, step_of_eot hs hp ht]
      exact eotAnswer_of_silence hx
  · rw [step_of_eotSent hs hp, eotAnswer_of_byte hx]
    rfl

/-! ## `OP_INIT` -/

theorem initBuild_of_ready {s : State} (hr : s.srcReady ≠ some 0) :
    initBuild s = ((afterBuild s).setRawMode true).goto .awaitAck := by
  rw [initBuild, buildBlock_eq_afterBuild hr]

/-- R151: with a source that opens and answers its first read, `OP_INIT` builds the first block. -/
theorem execOpInit_of_ready {s : State} (hp : s.progress ≠ .opened) (ho : s.srcOpens = true)
    (h0 : s.srcReady ≠ some 0) (h1 : s.srcReady ≠ some 1) :
    execOpInit s = .next (((afterBuild (afterOpen (s.srcReady.map (· - 1)) s)).setRawMode true).goto .awaitAck) := by
  have hr : (afterOpen (s.srcReady.map (· - 1)) s).srcReady ≠ some 0 := by
    change s.srcReady.map (· - 1) ≠ some 0
    cases hq : s.srcReady with
    | none => simp
    | some n =>
      simp only [hq, ne_eq, Option.some.injEq] at h0 h1
      simp only [Option.map_some, ne_eq, Option.some.injEq]
      omega
  rcases execOpInit_cases s with ⟨h, _⟩ | ⟨_, h, _⟩ | ⟨r, _, hs, _, e⟩ | ⟨r, _, _, h, _⟩
  · exact absurd h hp
  · exact absurd h h0
  · rw [e, spend_eq_map hs, initBuild_of_ready hr]
  · simp [ho] at h

/-- R52: the first read is from position 0. -/
theorem srcAnswer_afterOpen (r : Option Nat) (s : State) :
    srcAnswer (afterOpen r s) = s.srcContent.take (min 128 (s.srcShort.headD 128)) := rfl

/-- Settles O27: the open, then a build (`execOpInit_of_ready`), which leaves the frame of the first bytes. -/
theorem initBuildsFirstBlock : Obligations.InitBuildsFirstBlock := by
  intro s d hp ho h0 h1 hd
  rw [← srcAnswer_afterOpen (s.srcReady.map (· - 1)) s] at hd
  subst hd
  refine ⟨(afterBuild (afterOpen (s.srcReady.map (· - 1)) s)).currentBlock, readRange_afterBuild _,
    fun _ => read_afterBuild_of_ge _, (execOpInit_of_ready hp ho h0 h1).trans (congrArg _ ?_)⟩
  have hready : (s.srcReady.map (· - 1)).map (· - 1) = s.srcReady.map (· - 2) := Option.map_map _ _ _
  conv_lhs => rw [afterBuild_eq]
  simp [State.setRawMode, State.goto, afterOpen, State.setProgress, State.setFileOpen, State.log, State.setSrcPos,
    State.setSrcReady, hready, -Option.map_map]

/-! ## The other operations -/

/-- Settles O32: the row of the byte (`execOpAwaitAck_of_byte`, `decodeCtrlIn_cases`), each one transfer of control. -/
theorem awaitAckActsOnByte : Obligations.AwaitAckActsOnByte := by
  refine ⟨rfl, fun s c rest hx => ?_⟩
  change execOpAwaitAck s = _
  rw [execOpAwaitAck_of_byte hx]
  rcases decodeCtrlIn_cases c with ⟨rfl, e⟩ | ⟨rfl, e⟩ | ⟨rfl, e⟩ | ⟨h1, h2, h3, e⟩ <;> rw [e]
  · rfl
  · rfl
  · rfl
  · rw [if_neg h1, if_neg h2, if_neg h3]
    rfl

/-- R22: the counter adds one modulo 256. -/
theorem add_one_eq_ofNat (b : Byte) : b + 1#8 = BitVec.ofNat 8 ((b.toNat + 1) % 256) :=
  BitVec.eq_of_toNat_eq (by simp [BitVec.toNat_add])

/-- Settles O33: the row's two branches, by the flag (`execOpAdvance_cases`). -/
theorem advanceCountsOrEnds : Obligations.AdvanceCountsOrEnds := by
  refine ⟨rfl, fun s => ?_⟩
  rcases execOpAdvance_cases s with ⟨he, e⟩ | ⟨he, e⟩
  · exact ⟨fun _ => e, fun h => by simp [he] at h⟩
  · refine ⟨fun h => by simp [he] at h, fun _ => ?_⟩
    rw [← add_one_eq_ofNat]
    exact e

/-- R51: the buffer's bytes, read one by one in ascending offset. -/
theorem readRange_eq_map_read (m : Memory) (n : Nat) : m.readRange 0 n = (List.range n).map m.read :=
  List.ext_getElem (by simp) fun i _ _ => by simp

/-- Settles O34: the frame, or the rest of it, goes out to its end (`sendFrame_of_room`). -/
theorem sendEmitsWholeBuffer : Obligations.SendEmitsWholeBuffer := by
  rintro s k rfl hroom
  have hl : s.bufferBytes.length = 132 := Memory.length_readRange _ _ _
  refine ⟨readRange_eq_map_read s.currentBlock 132, ?_⟩
  change Host.Outcome.next (sendFrame s.bufferBytes s) = _
  rw [sendFrame_of_room (by rwa [hl])]
  simp [State.goto, State.handOver]

/-- Settles O36: the EOT goes out, then the answer is read (`eotAnswer_of_byte`). -/
theorem sendEotCompletes : Obligations.SendEotCompletes := by
  intro s c rest hp ht hx
  change execOpSendEot s = _
  rcases execOpSendEot_cases s with ⟨he, _⟩ | ⟨_, h0, _⟩ | ⟨_, _, e⟩
  · exact absurd he hp
  · exact absurd h0 ht
  · rw [e, eotAnswer_of_byte (s := afterEot s) hx]
    simp [afterEot, State.enterDone, State.goto, State.setDoneCause, State.log, State.setRx, State.setProgress,
      State.handOver]

/-- Settles O38: the release, by whether the source is open. -/
theorem doneReleases : Obligations.DoneReleases := by
  intro s
  change Host.Outcome.next s.release = _
  cases hf : s.fileOpen with
  | true => simp [State.release, hf, srcClose, State.log, State.setFileOpen, State.setRawMode]
  | false => simp [State.release, hf, State.setRawMode]

/-! ## A final session -/

theorem isFinal_iff (s : State) : s.isFinal = true ↔ s.state = .done ∧ s.fileOpen = false ∧ s.rawMode = false := by
  simp [State.isFinal, and_assoc]

theorem isFinal_release {s : State} (hs : s.state = .done) : s.release.isFinal = true :=
  (isFinal_iff _).2 ⟨by simpa using hs, release_fileOpen s, release_rawMode s⟩

/-! R8: an input changes no register and logs no event. -/

theorem isFinal_receive (e : Input) (s : State) : (s.receive e).isFinal = s.isFinal := by
  cases e <;> rfl

theorem trace_receive (e : Input) (s : State) : (s.receive e).trace = s.trace := by
  cases e <;> rfl

theorem outputs_receive (e : Input) (s : State) : (s.receive e).outputs = s.outputs := by
  cases e <;> rfl

/-- R159: a final session stays final, and nothing happens, whatever the environment does. -/
theorem runInputs_of_final {s : State} (hf : s.isFinal = true) (es : List Input) :
    ∃ t, runInputs es s = .next t ∧ t.isFinal = true ∧ t.trace = s.trace ∧ t.outputs = s.outputs := by
  induction es generalizing s with
  | nil => exact ⟨s, rfl, hf, rfl, rfl⟩
  | cons e es ih =>
    have hf' : (s.receive e).isFinal = true := (isFinal_receive e s).trans hf
    obtain ⟨t, hrun, ht, htrace, hout⟩ := ih hf'
    refine ⟨t, ?_, ht, htrace.trans (trace_receive e s), hout.trans (outputs_receive e s)⟩
    rw [runInputs, step_final hf']
    exact hrun

/-- Settles O39: `OP_DONE` makes a session final (`isFinal_release`), and it stays so (`runInputs_of_final`). -/
theorem finalStateStays : Obligations.FinalStateStays := by
  refine ⟨isFinal_iff, fun s hs => ?_, fun s es hf => runInputs_of_final hf es⟩
  cases hf : s.isFinal with
  | true => exact ⟨s, step_final hf, hf, rfl⟩
  | false => exact ⟨s.release, step_done hs hf, isFinal_release hs, release_doneCause s⟩

end Sys2Proof.Machine
end

section
/-! SUPPORT. A whole round of a session as one record (43_controller.md R152 to R157, R165). -/

namespace Sys2Proof.Machine

/-- The state from which the next block is built, once its ACK is consumed. -/
def beforeNextBuild (rest : List Byte) (s : State) : State := afterCount (afterByte Config.ACK rest .advance s)

theorem afterNextBuild_eq_goto (rest : List Byte) (s : State) :
    afterNextBuild rest s = (afterBuild (beforeNextBuild rest s)).goto .send := rfl

theorem srcAnswer_beforeNextBuild (rest : List Byte) (s : State) : srcAnswer (beforeNextBuild rest s) = srcAnswer s := rfl

theorem blockNumber_beforeNextBuild (rest : List Byte) (s : State) :
    (beforeNextBuild rest s).blockNumber = s.blockNumber + 1#8 := rfl

theorem currentBlock_beforeNextBuild (rest : List Byte) (s : State) :
    (beforeNextBuild rest s).currentBlock = s.currentBlock := rfl

/-- R128: the buffer after the next build holds the next frame. -/
theorem readRange_afterNextBuild (rest : List Byte) (s : State) :
    (afterNextBuild rest s).currentBlock.readRange 0 132 = builtFrame (s.blockNumber + 1#8) (srcAnswer s) := by
  rw [afterNextBuild_eq_goto, State.goto_currentBlock, readRange_afterBuild, srcAnswer_beforeNextBuild,
    blockNumber_beforeNextBuild]

theorem read_afterNextBuild_of_ge (rest : List Byte) (s : State) {a : Nat} (ha : 132 ≤ a) :
    (afterNextBuild rest s).currentBlock.read a = s.currentBlock.read a := by
  rw [afterNextBuild_eq_goto, State.goto_currentBlock, read_afterBuild_of_ge _ ha, currentBlock_beforeNextBuild]

/-- All that a round with a new frame writes. -/
theorem afterFrame_afterNextBuild_eq {s : State} (rest : List Byte) (hs : s.state = .awaitAck) (he : s.eofFlag = false)
    (hr : s.srcReady = none) (ht : s.txReady = none) :
    afterFrame (afterNextBuild rest s) = { s with
      progress := .idle, blockNumber := s.blockNumber + 1#8, eofFlag := decide ((srcAnswer s).length < 128)
      currentBlock := (afterNextBuild rest s).currentBlock, srcPos := s.srcPos + (srcAnswer s).length
      srcShort := s.srcShort.tail, rx := rest
      trace := s.trace ++ [.rx 0x06#8, .srcRead (srcAnswer s)] ++
        (builtFrame (s.blockNumber + 1#8) (srcAnswer s)).map Event.tx } := by
  have hframe : (afterNextBuild rest s).bufferBytes = builtFrame (s.blockNumber + 1#8) (srcAnswer s) :=
    readRange_afterNextBuild rest s
  have hblock : (afterBuild (beforeNextBuild rest s)).currentBlock = (afterNextBuild rest s).currentBlock := by
    rw [afterNextBuild_eq_goto, State.goto_currentBlock]
  rw [afterFrame, hframe]
  conv_lhs => rw [afterNextBuild_eq_goto, afterBuild_eq, srcAnswer_beforeNextBuild, hblock]
  simp [State.handOver, State.goto, beforeNextBuild, afterCount, afterByte, hs, he, hr, ht]

/-- All that the ending writes. -/
theorem afterEnding_eq {s : State} (b : Byte) (rest : List Byte) (hf : s.fileOpen = true) (ht : s.txReady = none) :
    afterEnding b rest s = { s with
      state := .done, doneCause := .complete, progress := .idle, fileOpen := false, rawMode := false, rx := rest
      trace := s.trace ++ [.rx 0x06#8, .tx 0x04#8, .rx b, .srcClose] } := by
  simp [afterEnding, afterEot, afterByte, State.release, hf, srcClose, State.log, State.setFileOpen,
    State.setRawMode, State.enterDone, State.setDoneCause, State.goto, State.setRx, State.setProgress, State.handOver, ht]

/-- Settles O60: the two rounds that begin with an ACK (`run_of_ack_of_more`, `run_of_ack_of_end`), each as one record. -/
theorem ackRoundsFollowTheRules : Obligations.AckRoundsFollowTheRules := by
  intro s rest hs hf ht hr hx
  refine ⟨fun d he hd => ?_, fun b rest' he hrest => ?_⟩
  · obtain rfl : d = srcAnswer s := hd
    refine ⟨(afterNextBuild rest s).currentBlock, readRange_afterNextBuild rest s,
      fun _ => read_afterNextBuild_of_ge rest s, ?_⟩
    rw [← afterFrame_afterNextBuild_eq rest hs he hr ht]
    exact run_of_ack_of_more hs hx he hf hr ht
  · subst hrest
    rw [← afterEnding_eq b rest' hf ht]
    exact run_of_ack_of_end hs hx he hf ht

end Sys2Proof.Machine
end

section
/-! SUPPORT. The transition table (43_controller.md R158): the status outputs that each update leaves (10_state.md R31). -/

namespace Sys2Proof.Machine

section
variable (s : State)

@[simp] theorem outputs_log (es : List Event) : (s.log es).outputs = s.outputs := by simp [State.outputs]
@[simp] theorem outputs_setRx (v : List Byte) : (s.setRx v).outputs = s.outputs := by simp [State.outputs]
@[simp] theorem outputs_setSrcReady (v : Option Nat) : (s.setSrcReady v).outputs = s.outputs := by simp [State.outputs]
@[simp] theorem outputs_setProgress (v : Progress) : (s.setProgress v).outputs = s.outputs := by simp [State.outputs]
@[simp] theorem outputs_handOver (bs : List Byte) : (s.handOver bs).outputs = s.outputs := by simp [State.outputs]
@[simp] theorem outputs_setRawMode (v : Bool) : (s.setRawMode v).outputs = { s.outputs with rawMode := v } := by
  simp [State.outputs]
@[simp] theorem outputs_setBlockNumber (v : Byte) :
    (s.setBlockNumber v).outputs = { s.outputs with blockNumber := v } := by
  simp [State.outputs]
@[simp] theorem outputs_goto (st : CtrlState) : (s.goto st).outputs = { s.outputs with state := st.code } := by
  simp [State.outputs]
@[simp] theorem outputs_enterDone (c : DoneCause) :
    (s.enterDone c).outputs = { s.outputs with state := CtrlState.done.code, doneCause := c.code } := by
  simp [State.outputs]
@[simp] theorem outputs_afterOpen (r : Option Nat) : (afterOpen r s).outputs = { s.outputs with fileOpen := true } := by
  simp [State.outputs]
@[simp] theorem outputs_afterEot : (afterEot s).outputs = s.outputs := by simp [afterEot]

theorem outputs_release : s.release.outputs = { s.outputs with fileOpen := false, rawMode := false } := by
  simp [State.outputs]

@[simp] theorem afterBuild_rawMode : (afterBuild s).rawMode = s.rawMode := by simp [afterBuild]
@[simp] theorem afterBuild_doneCause : (afterBuild s).doneCause = s.doneCause := by simp [afterBuild]

/-- R128, R154: what a build writes, as the host sees it. -/
theorem outputs_afterBuild : (afterBuild s).outputs = { s.outputs with
    currentBlock := builtFrame s.blockNumber (srcAnswer s)
    eofFlag := s.eofFlag || decide ((srcAnswer s).length < 128) } := by
  have hbuf : (afterBuild s).outputs.currentBlock = builtFrame s.blockNumber (srcAnswer s) := readRange_afterBuild s
  rw [← hbuf]
  simp [State.outputs]

/-- R151: what the first build and the end of `OP_INIT` write, as the host sees it. -/
theorem outputs_firstBuild (hf : s.fileOpen = true) :
    (((afterBuild s).setRawMode true).goto .awaitAck).outputs = { s.outputs with
      state := CtrlState.awaitAck.code, fileOpen := true, rawMode := true
      currentBlock := builtFrame s.blockNumber (srcAnswer s)
      eofFlag := s.eofFlag || decide ((srcAnswer s).length < 128) } := by
  have ho : s.outputs.fileOpen = true := hf
  simp [outputs_afterBuild, ho]

end

theorem spend_ne_zero {o r : Option Nat} (h : spend o = some r) : o ≠ some 0 := by
  rintro rfl
  cases h

theorem eq_one_of_spend {o : Option Nat} (h : spend o = some (some 0)) : o = some 1 := by
  cases o with
  | none => simp at h
  | some n => cases n <;> simp_all

/-- Control transferred to the state the unit is in shows in no output. -/
theorem outputs_state_self {s : State} {st : CtrlState} (hs : s.state = st) :
    { s.outputs with state := st.code } = s.outputs := by
  subst hs
  rfl

/-- Settles O40: by the state, then by what its operation can do: its row (`execOpInit_cases` and the like), or its wait
(`initBuild_of_wait`, `execOpBuild_of_wait`, `sendFrame_of_stall`). -/
theorem transitionsAreTheTable : Obligations.TransitionsAreTheTable := by
  intro s t h hstep
  cases hs : s.state with
  | init =>
    rw [step_init hs] at hstep
    rcases execOpInit_cases s with ⟨hp, e⟩ | ⟨_, hr, e⟩ | ⟨r, hp, hr, ho, e⟩ | ⟨r, hp, hr, ho, e⟩ <;>
      obtain rfl := next_unique e hstep
    · by_cases hr : s.srcReady = some 0
      · exact .inr (.inr (.inr ⟨hr, initBuild_of_wait hr⟩))
      · rw [initBuild_of_ready hr]
        refine .inr (.inl ⟨.inl hp, hr, srcAnswer s, srcAnswer_length s, ?_, by simp [hp]⟩)
        exact outputs_firstBuild s ((h.init hs).openIffOpened.2 hp)
    · exact .inr (.inr (.inr ⟨hr, rfl⟩))
    · by_cases hwait : r = some 0
      · subst hwait
        rw [initBuild_of_wait rfl]
        exact .inr (.inr (.inl ⟨hp, ho, eq_one_of_spend hr, rfl, outputs_afterOpen s _, rfl⟩))
      · rw [initBuild_of_ready hwait]
        refine .inr (.inl ⟨.inr ho, spend_ne_zero hr, srcAnswer (afterOpen r s), srcAnswer_length _, ?_, by simp [hp]⟩)
        simp [outputs_firstBuild (afterOpen r s) rfl]
    · exact .inl ⟨hp, ho, spend_ne_zero hr, by simp, rfl⟩
  | awaitAck =>
    rw [step_awaitAck hs] at hstep
    rcases execOpAwaitAck_cases s with ⟨hx, e⟩ | ⟨rest, hx, e⟩ | ⟨rest, hx, e⟩ | ⟨rest, hx, e⟩ |
        ⟨b, rest, h1, h2, h3, hx, e⟩ <;>
      obtain rfl := next_unique e hstep
    · exact .inr (.inr (.inr (.inr ⟨hx, rfl⟩)))
    · exact .inl ⟨by simp [hx], rfl, by simp⟩
    · exact .inr (.inl ⟨by simp [hx], rfl, by simp⟩)
    · exact .inr (.inr (.inl ⟨by simp [hx], rfl, by simp⟩))
    · refine .inr (.inr (.inr (.inl ⟨b, by simp [hx], h1, h2, h3, rfl, ?_⟩)))
      simpa using outputs_state_self hs
  | advance =>
    rw [step_advance hs] at hstep
    rcases execOpAdvance_cases s with ⟨he, e⟩ | ⟨he, e⟩ <;> obtain rfl := next_unique e hstep
    · exact ⟨rfl, .inl ⟨he, by simp⟩⟩
    · exact ⟨rfl, .inr ⟨he, by simp⟩⟩
  | build =>
    have hf : s.fileOpen = true := (h.running hs rfl).isOpen
    rw [step_build hs] at hstep
    by_cases hr : s.srcReady = some 0
    · exact .inr ⟨hr, (next_unique (execOpBuild_of_wait hf hr) hstep).symm⟩
    · obtain rfl := next_unique (execOpBuild_of_ready hf hr) hstep
      exact .inl ⟨hr, srcAnswer s, srcAnswer_length s, by simp, by rw [outputs_goto, outputs_afterBuild]⟩
  | send =>
    rw [step_send hs] at hstep
    obtain rfl := Host.Outcome.next.inj hstep
    by_cases hroom : ∀ r, s.txReady = some r → 132 - s.progress.sentSoFar ≤ r
    · rw [sendFrame_of_room (by rwa [Memory.length_readRange])]
      exact .inl ⟨hroom, by simp, rfl⟩
    · push Not at hroom
      obtain ⟨r, hr, hlt⟩ := hroom
      rw [sendFrame_of_stall hr (by rwa [Memory.length_readRange])]
      exact .inr ⟨r, hr, hlt, by simp [afterStall], rfl, rfl⟩
  | sendEot =>
    rw [step_sendEot hs] at hstep
    rcases execOpSendEot_cases s with ⟨hp, e⟩ | ⟨hp, ht, e⟩ | ⟨hp, ht, e⟩
    · rcases eotAnswer_cases s with ⟨hx, e'⟩ | ⟨b, rest, hx, e'⟩ <;> obtain rfl := next_unique (e.trans e') hstep
      · exact .inr (.inr ⟨.inl ⟨hp, hx⟩, rfl⟩)
      · exact .inl ⟨b, by simp [hx], .inl hp, by simp, by simp [hp]⟩
    · obtain rfl := next_unique e hstep
      exact .inr (.inr ⟨.inr ⟨hp, ht⟩, rfl⟩)
    · rcases eotAnswer_cases (afterEot s) with ⟨hx, e'⟩ | ⟨b, rest, hx, e'⟩ <;>
        obtain rfl := next_unique (e.trans e') hstep
      · exact .inr (.inl ⟨hp, ht, hx, rfl, by simp, rfl⟩)
      · have hx' : s.rx = b :: rest := hx
        exact .inl ⟨b, by simp [hx'], .inr ht, by simp, by simp [hp, afterEot]⟩
  | done =>
    cases hf : s.isFinal with
    | true => exact .inr ⟨rfl, (next_unique (step_final hf) hstep).symm⟩
    | false =>
      obtain rfl := next_unique (step_done hs hf) hstep
      exact .inl ⟨rfl, outputs_release s, release_trace s⟩

end Sys2Proof.Machine
end

section
/-! SUPPORT. No sound state stops the unit (60_exceptions.md R186), and the two endings without an EOT: the open that fails
(R181) and the cancelled session (R182). -/

namespace Sys2Proof.Machine

/-! ## No sound state stops -/

theorem wf_operation (st : CtrlState) : st.operation.wf = true := by
  cases st <;> rfl

theorem eq_build_of_operation {st : CtrlState} (h : st.operation = .opBuild ∨ st.operation = .buildBlock) :
    st = .build := by
  cases st <;> simp [CtrlState.operation] at h ⊢

/-- Settles O58: the row of a state can stop only as a build of a source that is not open (`wellFormedRowsRun`), and in a
sound `BUILD` the source is open. -/
theorem soundStatesStep : Obligations.SoundStatesStep := by
  intro s h
  cases hf : s.isFinal with
  | true => exact ⟨s, step_final hf⟩
  | false =>
    rw [step_of_not_final hf, fetch_eq_operation]
    rcases wellFormedRowsRun s.state.operation s (wf_operation s.state) with hrun | ⟨_, hclosed, hbuild⟩
    · exact hrun
    · have hopen : s.fileOpen = true := (h.running (eq_build_of_operation hbuild) rfl).isOpen
      simp [hopen] at hclosed

/-- Where inputs keep a property and every state that has it answers a next one that has it, every run ends in one. -/
theorem runs_of_runInputs {P : State → Prop} (hinput : ∀ s e, P s → P (s.receive e))
    (hstep : ∀ s, P s → ∃ t, step s = .next t ∧ P t) (es : List Input) {s : State} (hs : P s) :
    ∃ t, runInputs es s = .next t ∧ P t := by
  induction es generalizing s with
  | nil => exact ⟨s, rfl, hs⟩
  | cons e es ih =>
    obtain ⟨u, hu, hPu⟩ := hstep _ (hinput s e hs)
    obtain ⟨t, ht, hPt⟩ := ih hPu
    refine ⟨t, ?_, hPt⟩
    rw [runInputs, hu]
    exact ht

/-- A sound state whose outbound stream and counts are those of a session from reset (R22, R35, R57, R94, R161). -/
structure State.InSession (s : State) : Prop where
  inv : s.Inv
  outbound : s.OutboundShape
  counter : s.CounterCountsReads
  acks : s.AcksCountBlocks
  reads : s.ReadsAreFull

namespace State.InSession
variable {s : State}

theorem receive (h : s.InSession) (e : Input) : (s.receive e).InSession := by
  obtain ⟨hinv, houtbound, hcounter, hacks, hreads, _⟩ := inputKeepsInvariant s e h.inv
  exact ⟨hinv, houtbound h.outbound, hcounter h.counter, hacks h.acks, hreads h.reads⟩

theorem exists_step (h : s.InSession) : ∃ t, step s = .next t ∧ t.InSession := by
  obtain ⟨t, ht⟩ := soundStatesStep s h.inv
  exact ⟨t, ht, {
    inv := stepKeepsInvariant s t h.inv ht
    outbound := stepKeepsOutboundShape s t h.inv h.outbound ht
    counter := stepKeepsCounter s t h.inv h.counter ht
    acks := (stepKeepsAckCount s t h.inv h.acks ht).1
    reads := stepKeepsReadPosition s t h.inv h.reads ht }⟩

end State.InSession

/-- At the start of a session, all that the invariants read is as reset leaves it (R34, R36). -/
theorem inSession_sessionStart (source : List Byte) (opens : Bool) (short : List Nat) (depth : Option Nat)
    (inbound : List Byte) : (sessionStart source opens short depth inbound).InSession where
  inv := inv_sessionStart source opens short depth inbound
  outbound := outboundShape_reset
  counter := counterCountsReads_reset
  acks := acksCountBlocks_reset
  reads := readsAreFull_reset

/-- Settles O51: the start of a session is sound, and inputs and steps keep it so (`runs_of_runInputs`). -/
theorem sessionsNeverStop : Obligations.SessionsNeverStop := by
  intro source opens short depth inbound es
  obtain ⟨t, hrun, ht⟩ := runs_of_runInputs (fun _ e h => h.receive e) (fun _ h => h.exists_step) es
    (inSession_sessionStart source opens short depth inbound)
  exact ⟨t, hrun, ht.inv, ht.outbound, ht.counter, ht.acks, ht.reads⟩

/-! ## The endings without an EOT -/

theorem step_of_can {s : State} {rest : List Byte} (hs : s.state = .awaitAck) (hx : s.rx = Config.CAN :: rest) :
    step s = .next (((s.setRx rest).log [.rx Config.CAN]).enterDone .peerCancelled) := by
  rw [step_awaitAck hs, execOpAwaitAck_of_byte hx]
  rfl

/-- The session ended by the peer: the CAN consumed, all released. -/
def afterCancel (rest : List Byte) (s : State) : State :=
  (((s.setRx rest).log [.rx Config.CAN]).enterDone .peerCancelled).release

/-- A CAN, and the release (R157, R182). -/
theorem run_of_can {s : State} {rest : List Byte} (hs : s.state = .awaitAck) (hf : s.fileOpen = true)
    (hx : s.rx = Config.CAN :: rest) : Sys2Proof.core.run 2 s = .next (afterCancel rest s) :=
  (run_succ 1 (step_of_can hs hx)).trans (run_succ 0 (step_of_open_done rfl hf))

theorem trace_afterCancel {s : State} (rest : List Byte) (hf : s.fileOpen = true) :
    (afterCancel rest s).trace = s.trace ++ [.rx Config.CAN, .srcClose] := by
  simp [afterCancel, hf]

/-- Neither the `Rx` nor the `SrcClose` is outbound. -/
theorem outboundOf_afterCancel (rest : List Byte) (s : State) :
    outboundOf (afterCancel rest s).trace = outboundOf s.trace := by
  rw [afterCancel, outboundOf_release, State.enterDone_trace, State.log_trace, outboundOf_append, outboundOf_rx,
    List.append_nil, State.setRx_trace]

/-- Settles O55: the CAN, then the release of what was open (`run_of_can`, `isFinal_release`). -/
theorem cancelEndsSession : Obligations.CancelEndsSession := by
  intro s rest hs hf hx
  exact ⟨afterCancel rest s, run_of_can hs hf hx, isFinal_release rfl, by simp [afterCancel], trace_afterCancel rest hf,
    outboundOf_afterCancel rest s, by simp [afterCancel], by simp [afterCancel], by simp [afterCancel],
    by simp [afterCancel]⟩

/-- R181: an open that is answered `fail`. -/
theorem execOpInit_of_open_failure {s : State} (hp : s.progress ≠ .opened) (ho : s.srcOpens = false)
    (hr : s.srcReady ≠ some 0) :
    execOpInit s = .next
      (((s.setSrcReady (s.srcReady.map (· - 1))).log [.srcOpenFail]).enterDone .sourceUnavailable) := by
  rcases execOpInit_cases s with ⟨h, _⟩ | ⟨_, h, _⟩ | ⟨_, _, _, h, _⟩ | ⟨r, _, hspend, _, e⟩
  · exact absurd h hp
  · exact absurd h hr
  · simp [ho] at h
  · rw [e, spend_eq_map hspend]

/-- Settles O28: the entry to `DONE` (`execOpInit_of_open_failure`) touches neither the source nor the mode, so with neither
on, the session is final. -/
theorem openFailureEndsSession : Obligations.OpenFailureEndsSession := by
  intro s hp ho hr
  have hexec := execOpInit_of_open_failure hp ho hr
  refine ⟨hexec, fun hf hm t ht => ?_⟩
  obtain rfl := next_unique hexec ht
  exact (isFinal_iff _).2 ⟨rfl, hf, hm⟩

end Sys2Proof.Machine
end

section
/-! SUPPORT. What a peer that only rejects, or acknowledges early, makes of a session (43_controller.md R152,
R153; 70_reset_and_hazards.md R218 to R220), and a reset after the first one (R210 to R213). -/

namespace Sys2Proof.Machine

/-! ## Rejections -/

/-- All that a rejection and the frame sent again write. -/
theorem afterFrame_afterNak_eq {s : State} (rest : List Byte) (hs : s.state = .awaitAck) (hp : s.progress = .idle)
    (ht : s.txReady = none) :
    afterFrame (afterByte Config.NAK rest .send s) = { s with
      rx := rest, trace := s.trace ++ (Event.rx 0x15#8 :: s.bufferBytes.map Event.tx) } := by
  simp [afterFrame, afterByte, State.handOver, State.goto, State.log, State.setRx, hs, hp, ht]

/-- Settles O54, by induction on the rejections: each sends the buffer once and leaves all as it was
(`run_of_nak`, `afterFrame_afterNak_eq`). -/
theorem rejectionsResendSameFrame : Obligations.RejectionsResendSameFrame := by
  intro s n rest hs hp ht hx
  induction n generalizing s with
  | zero =>
    obtain rfl : s.rx = rest := hx
    simp [Host.Core.run]
  | succ n ih =>
    have hround := run_of_nak hs (by simpa [List.replicate_succ] using hx) ht
    rw [afterFrame_afterNak_eq _ hs hp ht] at hround
    calc Sys2Proof.core.run (2 * (n + 1)) s
        = Sys2Proof.core.run (2 + 2 * n) s := by rw [Nat.mul_succ, Nat.add_comm]
      _ = Sys2Proof.core.run (2 * n) _ := run_add (2 * n) hround
      _ = .next _ := ih _ hs hp ht rfl
      _ = .next _ := by simp [List.replicate_succ]

/-! ## Acknowledgements -/

/-- R81: byte 1 of a built frame is its sequence byte. -/
theorem getElem?_one_builtFrame (bn : Byte) (d : List Byte) : (builtFrame bn d)[1]? = some (bn + 1#8) := rfl

/-- R156: the wait for the EOT's answer sends nothing, whether or not the answer is there. -/
theorem eotAnswer_sends_nothing (s : State) :
    ∃ t, eotAnswer s = .next t ∧ outboundOf t.trace = outboundOf s.trace := by
  rcases eotAnswer_cases s with ⟨_, e⟩ | ⟨b, rest, _, e⟩
  · exact ⟨s, e, rfl⟩
  · exact ⟨_, e, by simp [-List.append_assoc]⟩

/-- R156: the first step in `SEND_EOT` sends the EOT and no more. -/
theorem step_sends_eot {s : State} (hs : s.state = .sendEot) (hp : s.progress ≠ .eotSent) (ht : s.txReady ≠ some 0) :
    ∃ t, step s = .next t ∧ outboundOf t.trace = outboundOf s.trace ++ [Config.EOT] := by
  obtain ⟨t, hanswer, hsent⟩ := eotAnswer_sends_nothing (afterEot s)
  exact ⟨t, (step_of_eot hs hp ht).trans hanswer, hsent.trans (outboundOf_handOver [Config.EOT] s)⟩

/-- Settles O56: with more data the round is that of O60, whose frame has the next sequence byte
(`getElem?_one_builtFrame`); at the end of the data the step in `SEND_EOT` sends the EOT (`step_sends_eot`). -/
theorem ackAdvancesUnsentBlock : Obligations.AckAdvancesUnsentBlock := by
  intro s rest hs hf ht hr hx
  refine ⟨fun he => ?_, fun he => ?_⟩
  · obtain ⟨m, hm, _, hrun⟩ := (ackRoundsFollowTheRules s rest hs hf ht hr hx).1 (srcAnswer s) he rfl
    refine ⟨_, builtFrame (s.blockNumber + 1#8) (srcAnswer s), hrun, hs, rfl, ?_, ?_, ?_, rfl⟩
    · rw [← hm]
      exact Memory.length_readRange m 0 132
    · rw [getElem?_one_builtFrame, BitVec.add_assoc]
      rfl
    · simp [outboundOf_cons, Event.txByte?]
  · obtain ⟨t, heot, hsent⟩ := step_sends_eot (s := (afterByte Config.ACK rest .advance s).goto .sendEot) rfl nofun
      (by simp [afterByte, ht])
    refine ⟨t, ?_, ?_⟩
    · calc Sys2Proof.core.run 3 s
          = Sys2Proof.core.run 2 (afterByte Config.ACK rest .advance s) := run_succ 2 (step_of_ack hs hx)
        _ = Sys2Proof.core.run 1 ((afterByte Config.ACK rest .advance s).goto .sendEot) :=
          run_succ 1 (step_of_end rfl he)
        _ = .next t := run_succ 0 heot
    · rw [hsent]
      simp [afterByte, -List.append_assoc]

/-! ## A later reset -/

/-- Settles O2: at either end the state is `State.afterReset`, whose registers are R34's; between them neither condition
of the reset holds. -/
theorem hostResetOnlyAtEnds : Obligations.HostResetOnlyAtEnds := by
  intro s
  refine ⟨fun hends => ⟨s.afterReset, ?_, rfl, rfl, rfl, rfl, rfl, rfl, rfl, rfl⟩, fun hfinal hstart => ?_⟩
  · rw [hostReset, if_pos ((Bool.or_eq_true _ _).mpr hends)]
  · rw [hostReset, hfinal, hstart]
    rfl

end Sys2Proof.Machine
end
